-- ==== Sys2Proof/Config.lean ====
section
/-! DEFINITION. What an implementation fixes: the parameters of 00_scope.md rule R7.
None of them is left open by the spec, so this file holds no free value: the block has no
behaviour whose result the spec does not state (92_eei_decisions.md: no point is left OPEN). -/

namespace Sys2Proof.Config

/-- `ILEN`, the width of the instruction word (R7). -/
def ilen : Nat := 32

/-- `NREG`, the number of integer register indices (R7). -/
def nreg : Nat := 32

/-- Width of a register index field (R7). -/
def regFieldWidth : Nat := 5

/-- Width of the resolver's raw input (R7, R24; 92_eei_decisions.md D12). -/
def resolverInputWidth : Nat := 8

/-- Width of the `opcode` field, word[6:0] (R7). -/
def opcodeWidth : Nat := 7

/-- Width of the `funct3` field, word[14:12] (R7). -/
def funct3Width : Nat := 3

/-- Width of the `funct7` field, word[31:25] (R7). -/
def funct7Width : Nat := 7

/-- Container of the I, S, B, U and J immediates (R7; D13). -/
def immWidth : Nat := 32

/-- Container of the LOAD immediate (R7, R75; D13). -/
def loadImmWidth : Nat := 16

/-- Width of `shamt` (R7). -/
def shamtWidth : Nat := 5

/-- Width of `csr`, word[31:20] (R7). -/
def csrWidth : Nat := 12

/-- Width of `zimm`, word[19:15] (R7; D14). -/
def zimmWidth : Nat := 5

/-- Number of recognized opcodes (R7, R81; 90_conflicts.md C2). -/
def opcodeCount : Nat := 11

/-- Number of Operation variants (R7, R31; 90_conflicts.md C3). -/
def variantCount : Nat := 48

/-- Number of error kinds (R7, R34). -/
def errorKindCount : Nat := 4

/-- Number of state elements of the block (R7, R20). -/
def stateElementCount : Nat := 0

end Sys2Proof.Config
end

