-- ==== Sys2Proof/Word.lean ====
section
/-! DEFINITION. The word and byte types, the register identity and the six immediates as data
(00_scope.md rules R7, R9, R10; 10_state.md rule R28). Bit 0 is the least significant bit (R9). -/

namespace Sys2Proof

/-- The 32-bit instruction word: the block's input (R1, R7). -/
abbrev Word := BitVec 32

/-- One byte lane of the boundary wrapper (R36). -/
abbrev Byte := BitVec 8

/-- A register identity (R28): an enumerated value with 32 cases, identified by its index 0 to 31.
It is never a register value (R22); equality is equality of the index. -/
structure Register where
  index : BitVec 5
deriving DecidableEq, Repr

/-- Index 0, the always-zero register, which the source spells `ZERO` (R28). -/
def Register.zero : Register := ⟨0⟩

/-- The six immediates the reconstructor computes in parallel from one word (R80; D22):
I, L (the 16-bit LOAD container), S, B, U and J. -/
structure Immediates where
  i : BitVec 32
  l : BitVec 16
  s : BitVec 32
  b : BitVec 32
  u : BitVec 32
  j : BitVec 32
deriving DecidableEq, Repr

end Sys2Proof
end

