-- ==== Sys2Proof/Syntax.lean ====
section
/-! DEFINITION. The syntax: the closed union `Operation` of 10_state.md rule R31, one constructor
per row of spec/opcode_table.json, each with exactly the fields R31 lists and no others. -/

namespace Sys2Proof

/-- The 48 variants (R31). Register fields are identities; `imm` is a 32-bit two's-complement
pattern already sign-extended to its container, `imm16` the LOAD's 16-bit container, `shamt` and
`zimm` 5-bit and `csr` 12-bit unsigned. Which patterns a field may hold is `Instr.wellFormed`. -/
inductive Instr where
  | lui (rd : Register) (imm : BitVec 32)   -- R120, U
  | auipc (rd : Register) (imm : BitVec 32)   -- R121, U
  | jal (rd : Register) (imm : BitVec 32)   -- R125, J
  | jalr (rd rs1 : Register) (imm : BitVec 32)   -- R126, I
  | beq (rs1 rs2 : Register) (imm : BitVec 32)   -- R131, B
  | bne (rs1 rs2 : Register) (imm : BitVec 32)   -- R132, B
  | blt (rs1 rs2 : Register) (imm : BitVec 32)   -- R133, B
  | bge (rs1 rs2 : Register) (imm : BitVec 32)   -- R134, B
  | bltu (rs1 rs2 : Register) (imm : BitVec 32)   -- R135, B
  | bgeu (rs1 rs2 : Register) (imm : BitVec 32)   -- R136, B
  | lb (rd rs1 : Register) (imm16 : BitVec 16)   -- R141, L
  | lh (rd rs1 : Register) (imm16 : BitVec 16)   -- R142, L
  | lw (rd rs1 : Register) (imm16 : BitVec 16)   -- R143, L
  | lbu (rd rs1 : Register) (imm16 : BitVec 16)   -- R144, L
  | lhu (rd rs1 : Register) (imm16 : BitVec 16)   -- R145, L
  | sb (rs1 rs2 : Register) (imm : BitVec 32)   -- R151, S
  | sh (rs1 rs2 : Register) (imm : BitVec 32)   -- R152, S
  | sw (rs1 rs2 : Register) (imm : BitVec 32)   -- R153, S
  | addi (rd rs1 : Register) (imm : BitVec 32)   -- R161, I
  | slti (rd rs1 : Register) (imm : BitVec 32)   -- R162, I
  | sltiu (rd rs1 : Register) (imm : BitVec 32)   -- R163, I
  | xori (rd rs1 : Register) (imm : BitVec 32)   -- R164, I
  | ori (rd rs1 : Register) (imm : BitVec 32)   -- R165, I
  | andi (rd rs1 : Register) (imm : BitVec 32)   -- R166, I
  | slli (rd rs1 : Register) (shamt : BitVec 5)   -- R167, I-shift
  | srli (rd rs1 : Register) (shamt : BitVec 5)   -- R168, I-shift
  | srai (rd rs1 : Register) (shamt : BitVec 5)   -- R169, I-shift
  | add (rd rs1 rs2 : Register)   -- R181, R
  | sub (rd rs1 rs2 : Register)   -- R182, R
  | sll (rd rs1 rs2 : Register)   -- R183, R
  | slt (rd rs1 rs2 : Register)   -- R184, R
  | sltu (rd rs1 rs2 : Register)   -- R185, R
  | xor (rd rs1 rs2 : Register)   -- R186, R
  | srl (rd rs1 rs2 : Register)   -- R187, R
  | sra (rd rs1 rs2 : Register)   -- R188, R
  | or (rd rs1 rs2 : Register)   -- R189, R
  | and (rd rs1 rs2 : Register)   -- R190, R
  | fence   -- R201, marker
  | fenceI   -- R202, marker
  | ecall   -- R204, marker
  | ebreak   -- R205, marker
  | mret   -- R206, marker
  | csrrw (rd rs1 : Register) (csr : BitVec 12)   -- R211, I-system
  | csrrs (rd rs1 : Register) (csr : BitVec 12)   -- R212, I-system
  | csrrc (rd rs1 : Register) (csr : BitVec 12)   -- R213, I-system
  | csrrwi (rd : Register) (zimm : BitVec 5) (csr : BitVec 12)   -- R214, I-system
  | csrrsi (rd : Register) (zimm : BitVec 5) (csr : BitVec 12)   -- R215, I-system
  | csrrci (rd : Register) (zimm : BitVec 5) (csr : BitVec 12)   -- R216, I-system
deriving DecidableEq, Repr

end Sys2Proof
end

