-- ==== Sys2Proof/Result.lean ====
section
/-! DEFINITION. The result types of 10_state.md section 3 (`Instruction`, `DecodeError`, their
union), the resolver's and the wrapper's results, and the classes and formats of 30_encoding.md
rules R70 and R72. -/

namespace Sys2Proof

/-- The encoding width: the single case `W32` (R30, R98). -/
inductive Width where
  | w32
deriving DecidableEq, Repr

/-- A successful result: a width and one variant (R30). -/
structure Instruction where
  width : Width
  operation : Instr
deriving DecidableEq, Repr

/-- The four kinds of decode error with their payloads (R34, R300 to R304). -/
inductive DecodeError where
  /-- Kind 0: word[6:0] is none of the 11 recognized opcodes (R301). -/
  | unrecognizedOpcode (value : BitVec 7)
  /-- Kind 1: the opcode is recognized, its funct3 maps to no instruction of that class (R302). -/
  | invalidFunct3 (opcode : BitVec 7) (value : BitVec 3)
  /-- Kind 2: the funct3 needs a funct7 check and funct7 is not admitted (R303). -/
  | invalidFunct7 (funct3 : BitVec 3) (value : BitVec 7)
  /-- Kind 3: the resolver was given a raw value above 31; never raised by decode (R25, R304). -/
  | invalidRegister (value : BitVec 8)
deriving DecidableEq, Repr

/-- The result of `decode`: exactly one of `Ok(Instruction)` and `Err(DecodeError)` (R11, R30). -/
inductive DecodeResult where
  | ok (ins : Instruction)
  | err (e : DecodeError)
deriving DecidableEq, Repr

/-- The result of a call of `resolve` (R24). -/
inductive ResolveResult where
  | ok (r : Register)
  | err (e : DecodeError)
deriving DecidableEq, Repr

/-- What the boundary wrapper makes of a byte sequence (R36): the word, or the caller's contract
violation, which is not a `DecodeError` and never reaches the core. -/
inductive WrapResult where
  | word (w : Word)
  | contractViolation
deriving DecidableEq, Repr

/-- What decoding a byte stream word by word gives (95_test_vectors.md section 3): one result per
word, or the wrapper's rejection of a last group that is not four bytes (R36). -/
inductive StreamResult where
  | results (rs : List DecodeResult)
  | contractViolation
deriving DecidableEq, Repr

/-- The 11 recognized opcode classes (R17, R72). -/
inductive OpcodeClass where
  | lui | auipc | jal | jalr | branch | load | store | opImm | op | miscMem | system
deriving DecidableEq, Repr

/-- The bit layouts of R70. -/
inductive Format where
  | r | i | iShift | iSystem | s | b | u | j | miscMem
deriving DecidableEq, Repr

/-- A row of the opcode table (R102): a word is the row's variant exactly when
`(word & mask) == match`; `pattern` holds the row's `match`, `tag` the variant's code of R31. -/
structure OpcodeRow where
  mnemonic : String
  pattern : Word
  mask : Word
  tag : BitVec 6
deriving DecidableEq, Repr

end Sys2Proof
end

