-- ==== Sys2Proof/WellFormed.lean ====
section
/-! DEFINITION. Which values the fields of a decoded variant may hold: the ranges of
30_encoding.md rule R101 and the invariants of 10_state.md rule R32. Register, `shamt`, `zimm` and
`csr` fields are in range by their widths, so only the immediates are checked. -/

namespace Sys2Proof

/-- `imm_I` and `imm_S`: -2048 .. 2047 (R74, R76, R101). -/
def imm12Ok (v : BitVec 32) : Bool := -2048 ≤ v.toInt && v.toInt ≤ 2047

/-- `imm_L`: 0x0000 .. 0x07FF and 0xF800 .. 0xFFFF (R75, R101). -/
def immLOk (v : BitVec 16) : Bool := v.toNat ≤ 0x07FF || 0xF800 ≤ v.toNat

/-- `imm_B`: even values in -4096 .. 4094 (R77, R101). -/
def immBOk (v : BitVec 32) : Bool := -4096 ≤ v.toInt && v.toInt ≤ 4094 && v.toNat % 2 == 0

/-- `imm_U`: every pattern with bits 11:0 = 0 (R78, R101). -/
def immUOk (v : BitVec 32) : Bool := v.toNat % 4096 == 0

/-- `imm_J`: even values in -1048576 .. 1048574 (R79, R101). -/
def immJOk (v : BitVec 32) : Bool :=
  -1048576 ≤ v.toInt && v.toInt ≤ 1048574 && v.toNat % 2 == 0

/-- The fields of a variant hold values its format can express (R32, R101). -/
def Instr.wellFormed : Instr → Bool
  | .lui _ imm => immUOk imm
  | .auipc _ imm => immUOk imm
  | .jal _ imm => immJOk imm
  | .jalr _ _ imm => imm12Ok imm
  | .beq _ _ imm => immBOk imm
  | .bne _ _ imm => immBOk imm
  | .blt _ _ imm => immBOk imm
  | .bge _ _ imm => immBOk imm
  | .bltu _ _ imm => immBOk imm
  | .bgeu _ _ imm => immBOk imm
  | .lb _ _ imm16 => immLOk imm16
  | .lh _ _ imm16 => immLOk imm16
  | .lw _ _ imm16 => immLOk imm16
  | .lbu _ _ imm16 => immLOk imm16
  | .lhu _ _ imm16 => immLOk imm16
  | .sb _ _ imm => imm12Ok imm
  | .sh _ _ imm => imm12Ok imm
  | .sw _ _ imm => imm12Ok imm
  | .addi _ _ imm => imm12Ok imm
  | .slti _ _ imm => imm12Ok imm
  | .sltiu _ _ imm => imm12Ok imm
  | .xori _ _ imm => imm12Ok imm
  | .ori _ _ imm => imm12Ok imm
  | .andi _ _ imm => imm12Ok imm
  | .slli _ _ _ => true
  | .srli _ _ _ => true
  | .srai _ _ _ => true
  | .add _ _ _ => true
  | .sub _ _ _ => true
  | .sll _ _ _ => true
  | .slt _ _ _ => true
  | .sltu _ _ _ => true
  | .xor _ _ _ => true
  | .srl _ _ _ => true
  | .sra _ _ _ => true
  | .or _ _ _ => true
  | .and _ _ _ => true
  | .fence => true
  | .fenceI => true
  | .ecall => true
  | .ebreak => true
  | .mret => true
  | .csrrw _ _ _ => true
  | .csrrs _ _ _ => true
  | .csrrc _ _ _ => true
  | .csrrwi _ _ _ => true
  | .csrrsi _ _ _ => true
  | .csrrci _ _ _ => true

/-- The wrapper takes exactly four bytes (R36). -/
def fourBytes (bs : List Byte) : Bool := bs.length == 4

end Sys2Proof
end

