-- ==== Sys2Proof/Decode.lean ====
section
/-! DEFINITION. The decode function of 30_encoding.md, total on every word, with its three
sub-blocks: field extraction and the immediate field reconstructor (R71 to R80), the register index
resolver (10_state.md R24 to R27) and the dispatch of the eleven opcodes (R81 to R90 and the family
files). After it the boundary wrapper (20_memory.md R51), the encoder and the opcode table (R102).
The funct3 and funct7 values, the MISC-MEM opcode and the ECALL and MRET words are the spec's own
reading of RV32I (its D1, D2; log entry 10, UNVERIFIED). -/

namespace Sys2Proof

/-! ### Field extraction (R71) -/

def opcodeOf (w : Word) : BitVec 7 := w.extractLsb' 0 7
def rdOf (w : Word) : BitVec 5 := w.extractLsb' 7 5
def funct3Of (w : Word) : BitVec 3 := w.extractLsb' 12 3
def rs1Of (w : Word) : BitVec 5 := w.extractLsb' 15 5
def rs2Of (w : Word) : BitVec 5 := w.extractLsb' 20 5
def funct7Of (w : Word) : BitVec 7 := w.extractLsb' 25 7
def shamtOf (w : Word) : BitVec 5 := w.extractLsb' 20 5
def csrOf (w : Word) : BitVec 12 := w.extractLsb' 20 12
def zimmOf (w : Word) : BitVec 5 := w.extractLsb' 15 5

/-! ### The immediate field reconstructor (R73 to R80) -/

/-- `imm_I = sext_32(word[31:20])` (R74). -/
def immI (w : Word) : BitVec 32 := (w.extractLsb' 20 12).signExtend 32

/-- `imm_L = trunc_16(imm_I)` (R75). -/
def immL (w : Word) : BitVec 16 := (immI w).setWidth 16

/-- `imm_S = sext_32(word[31:25] ++ word[11:7])` (R76). -/
def immS (w : Word) : BitVec 32 := (w.extractLsb' 25 7 ++ w.extractLsb' 7 5).signExtend 32

/-- `imm_B = sext_32(word[31] ++ word[7] ++ word[30:25] ++ word[11:8] ++ 0)` (R77). -/
def immB (w : Word) : BitVec 32 :=
  (w.extractLsb' 31 1 ++ w.extractLsb' 7 1 ++ w.extractLsb' 25 6 ++ w.extractLsb' 8 4
    ++ 0b0#1).signExtend 32

/-- `imm_U = word[31:12] ++ 0^12` (R78). -/
def immU (w : Word) : BitVec 32 := w.extractLsb' 12 20 ++ 0#12

/-- `imm_J = sext_32(word[31] ++ word[19:12] ++ word[20] ++ word[30:21] ++ 0)` (R79). -/
def immJ (w : Word) : BitVec 32 :=
  (w.extractLsb' 31 1 ++ w.extractLsb' 12 8 ++ w.extractLsb' 20 1 ++ w.extractLsb' 21 10
    ++ 0b0#1).signExtend 32

/-- The six reconstructions of one word, computed in parallel and whatever its opcode (R80). -/
def reconstruct (w : Word) : Immediates :=
  { i := immI w, l := immL w, s := immS w, b := immB w, u := immU w, j := immJ w }

/-! ### The register index resolver (R24 to R27) -/

/-- `resolve` (R24): the register of a raw value up to 31, else `InvalidRegister`. -/
def resolve (raw : BitVec 8) : ResolveResult :=
  if raw ≤ 31#8 then .ok ⟨raw.setWidth 5⟩ else .err (.invalidRegister raw)

/-- `to_index` (R26). -/
def toIndex (r : Register) : BitVec 5 := r.index

/-- The registers of `mask` among the indices below `n`, in ascending order. -/
def listBelow (mask : BitVec 32) : Nat → List Register
  | 0 => []
  | n + 1 =>
    listBelow mask n ++ (if mask.getLsbD n then [⟨BitVec.ofNat 5 n⟩] else [])

/-- `list_from_bitmask` (R27); no variant uses it. -/
def listFromBitmask (mask : BitVec 32) : List Register := listBelow mask Config.nreg

/-! ### Results (R11) and register resolution inside decode (R12, R84) -/

/-- `emit V` of R11: the width is always `W32` (R30). -/
def emitOk (v : Instr) : DecodeResult := .ok { width := .w32, operation := v }

/-- `raise E` of R11. -/
def raiseErr (e : DecodeError) : DecodeResult := .err e

/-- Pass a 5-bit field, zero-extended to 8 bits, through `resolve`; a failure propagates (R84, R12).
That it never fails (R25) is a property, not built in. -/
def withReg (field : BitVec 5) (k : Register → DecodeResult) : DecodeResult :=
  match resolve (field.setWidth 8) with
  | .ok r => k r
  | .err e => raiseErr e

/-! ### Opcode dispatch (R81) -/

/-- The opcode value of each recognized class (R17, R72). -/
def OpcodeClass.code : OpcodeClass → BitVec 7
  | .lui => 0b0110111
  | .auipc => 0b0010111
  | .jal => 0b1101111
  | .jalr => 0b1100111
  | .branch => 0b1100011
  | .load => 0b0000011
  | .store => 0b0100011
  | .opImm => 0b0010011
  | .op => 0b0110011
  | .miscMem => 0b0001111
  | .system => 0b1110011

/-- The eleven recognized classes, in the order of R72. -/
def opcodeClasses : List OpcodeClass :=
  [.lui, .auipc, .jal, .jalr, .branch, .load, .store, .opImm, .op, .miscMem, .system]

/-- Step 1: the class of a recognized opcode value, and none for any other (R81). -/
def classOf (code : BitVec 7) : Option OpcodeClass :=
  opcodeClasses.find? (fun c => c.code == code)

/-- The format of a class (R72), with OP-IMM's shifts told apart by funct3 (R70). -/
def OpcodeClass.format (c : OpcodeClass) (f3 : BitVec 3) : Format :=
  match c with
  | .lui => .u
  | .auipc => .u
  | .jal => .j
  | .jalr => .i
  | .branch => .b
  | .load => .i
  | .store => .s
  | .opImm => if f3 = 0b001 || f3 = 0b101 then .iShift else .i
  | .op => .r
  | .miscMem => .miscMem
  | .system => .iSystem

/-! ### The handlers (R87 and the family files) -/

/-- R120. -/
def decodeLui (w : Word) : DecodeResult :=
  withReg (rdOf w) fun rd => emitOk (.lui rd (reconstruct w).u)

/-- R121. -/
def decodeAuipc (w : Word) : DecodeResult :=
  withReg (rdOf w) fun rd => emitOk (.auipc rd (reconstruct w).u)

/-- R125. -/
def decodeJal (w : Word) : DecodeResult :=
  withReg (rdOf w) fun rd => emitOk (.jal rd (reconstruct w).j)

/-- R126; the funct3 check is D4. -/
def decodeJalr (w : Word) : DecodeResult :=
  if funct3Of w ≠ 0b000 then raiseErr (.invalidFunct3 (opcodeOf w) (funct3Of w))
  else withReg (rdOf w) fun rd => withReg (rs1Of w) fun rs1 =>
    emitOk (.jalr rd rs1 (reconstruct w).i)

/-- The BRANCH row of R89; 010 and 011 are errors (R95). -/
def branchVariant (f3 : BitVec 3) : Option (Register → Register → BitVec 32 → Instr) :=
  if f3 = 0b000 then some .beq
  else if f3 = 0b001 then some .bne
  else if f3 = 0b100 then some .blt
  else if f3 = 0b101 then some .bge
  else if f3 = 0b110 then some .bltu
  else if f3 = 0b111 then some .bgeu
  else none

/-- R130. -/
def decodeBranch (w : Word) : DecodeResult :=
  match branchVariant (funct3Of w) with
  | none => raiseErr (.invalidFunct3 (opcodeOf w) (funct3Of w))
  | some v => withReg (rs1Of w) fun rs1 => withReg (rs2Of w) fun rs2 =>
      emitOk (v rs1 rs2 (reconstruct w).b)

/-- The LOAD row of R89. -/
def loadVariant (f3 : BitVec 3) : Option (Register → Register → BitVec 16 → Instr) :=
  if f3 = 0b000 then some .lb
  else if f3 = 0b001 then some .lh
  else if f3 = 0b010 then some .lw
  else if f3 = 0b100 then some .lbu
  else if f3 = 0b101 then some .lhu
  else none

/-- R140: the immediate is the 16-bit container (R75). -/
def decodeLoad (w : Word) : DecodeResult :=
  match loadVariant (funct3Of w) with
  | none => raiseErr (.invalidFunct3 (opcodeOf w) (funct3Of w))
  | some v => withReg (rdOf w) fun rd => withReg (rs1Of w) fun rs1 =>
      emitOk (v rd rs1 (reconstruct w).l)

/-- The STORE row of R89. -/
def storeVariant (f3 : BitVec 3) : Option (Register → Register → BitVec 32 → Instr) :=
  if f3 = 0b000 then some .sb
  else if f3 = 0b001 then some .sh
  else if f3 = 0b010 then some .sw
  else none

/-- R150: there is no rd field. -/
def decodeStore (w : Word) : DecodeResult :=
  match storeVariant (funct3Of w) with
  | none => raiseErr (.invalidFunct3 (opcodeOf w) (funct3Of w))
  | some v => withReg (rs1Of w) fun rs1 => withReg (rs2Of w) fun rs2 =>
      emitOk (v rs1 rs2 (reconstruct w).s)

/-- The non-shift cells of the OP-IMM row of R89; none for 001 and 101. -/
def opImmVariant (f3 : BitVec 3) : Option (Register → Register → BitVec 32 → Instr) :=
  if f3 = 0b000 then some .addi
  else if f3 = 0b010 then some .slti
  else if f3 = 0b011 then some .sltiu
  else if f3 = 0b100 then some .xori
  else if f3 = 0b110 then some .ori
  else if f3 = 0b111 then some .andi
  else none

/-- The OP-IMM cells of R90: all seven bits of funct7 are compared (R83; D3). -/
def shiftVariant (f3 : BitVec 3) (f7 : BitVec 7) :
    Option (Register → Register → BitVec 5 → Instr) :=
  if f3 = 0b001 then
    if f7 = 0b0000000 then some .slli else none
  else
    if f7 = 0b0000000 then some .srli
    else if f7 = 0b0100000 then some .srai
    else none

/-- R160: every funct3 is recognized; 001 and 101 check funct7. -/
def decodeOpImm (w : Word) : DecodeResult :=
  match opImmVariant (funct3Of w) with
  | some v => withReg (rdOf w) fun rd => withReg (rs1Of w) fun rs1 =>
      emitOk (v rd rs1 (reconstruct w).i)
  | none =>
    match shiftVariant (funct3Of w) (funct7Of w) with
    | none => raiseErr (.invalidFunct7 (funct3Of w) (funct7Of w))
    | some v => withReg (rdOf w) fun rd => withReg (rs1Of w) fun rs1 =>
        emitOk (v rd rs1 (shamtOf w))

/-- The OP cells of R90: all seven bits of funct7 are compared (R83; D3). -/
def opVariant (f3 : BitVec 3) (f7 : BitVec 7) :
    Option (Register → Register → Register → Instr) :=
  if f7 = 0b0000000 then
    if f3 = 0b000 then some .add
    else if f3 = 0b001 then some .sll
    else if f3 = 0b010 then some .slt
    else if f3 = 0b011 then some .sltu
    else if f3 = 0b100 then some .xor
    else if f3 = 0b101 then some .srl
    else if f3 = 0b110 then some .or
    else some .and
  else if f7 = 0b0100000 then
    if f3 = 0b000 then some .sub
    else if f3 = 0b101 then some .sra
    else none
  else none

/-- R180: every funct3 is recognized and funct7 is always checked. -/
def decodeOp (w : Word) : DecodeResult :=
  match opVariant (funct3Of w) (funct7Of w) with
  | none => raiseErr (.invalidFunct7 (funct3Of w) (funct7Of w))
  | some v => withReg (rdOf w) fun rd => withReg (rs1Of w) fun rs1 =>
      withReg (rs2Of w) fun rs2 => emitOk (v rd rs1 rs2)

/-- R200: word[31:15] and word[11:7] are not examined (R92; D7). -/
def decodeMiscMem (w : Word) : DecodeResult :=
  if funct3Of w = 0b000 then emitOk .fence
  else if funct3Of w = 0b001 then emitOk .fenceI
  else raiseErr (.invalidFunct3 (opcodeOf w) (funct3Of w))

/-- The marker words of R203, compared whole. -/
def mretWord : Word := 0x30200073
def ecallWord : Word := 0x00000073
def ebreakWord : Word := 0x00100073

/-- The register-source CSR cells of R89. -/
def csrRegVariant (f3 : BitVec 3) : Option (Register → Register → BitVec 12 → Instr) :=
  if f3 = 0b001 then some .csrrw
  else if f3 = 0b010 then some .csrrs
  else if f3 = 0b011 then some .csrrc
  else none

/-- The immediate CSR cells of R89. -/
def csrImmVariant (f3 : BitVec 3) : Option (Register → BitVec 5 → BitVec 12 → Instr) :=
  if f3 = 0b101 then some .csrrwi
  else if f3 = 0b110 then some .csrrsi
  else if f3 = 0b111 then some .csrrci
  else none

/-- R203: the whole-word comparisons come before any funct3 dispatch (R82 step 1); the CSR number
is copied and never judged (R23, R210). -/
def decodeSystem (w : Word) : DecodeResult :=
  if w = mretWord then emitOk .mret
  else if w = ecallWord then emitOk .ecall
  else if w = ebreakWord then emitOk .ebreak
  else
    match csrRegVariant (funct3Of w) with
    | some v => withReg (rdOf w) fun rd => withReg (rs1Of w) fun rs1 =>
        emitOk (v rd rs1 (csrOf w))
    | none =>
      match csrImmVariant (funct3Of w) with
      | some v => withReg (rdOf w) fun rd => emitOk (v rd (zimmOf w) (csrOf w))
      | none => raiseErr (.invalidFunct3 (opcodeOf w) (funct3Of w))

/-- The handler of a class (R72). -/
def handler : OpcodeClass → Word → DecodeResult
  | .lui => decodeLui
  | .auipc => decodeAuipc
  | .jal => decodeJal
  | .jalr => decodeJalr
  | .branch => decodeBranch
  | .load => decodeLoad
  | .store => decodeStore
  | .opImm => decodeOpImm
  | .op => decodeOp
  | .miscMem => decodeMiscMem
  | .system => decodeSystem

/-- The complete decode function (R85, R87): an unrecognized opcode is an error before any other
field is looked at (R81). -/
def decode (w : Word) : DecodeResult :=
  match classOf (opcodeOf w) with
  | none => raiseErr (.unrecognizedOpcode (opcodeOf w))
  | some c => handler c w

/-! ### The boundary wrapper (R36, R51) -/

/-- Little-endian assembly: `byte0` in the least significant position (R51). -/
def assemble (byte0 byte1 byte2 byte3 : Byte) : Word := byte3 ++ byte2 ++ byte1 ++ byte0

/-- Byte lane `k` of a word, the inverse of `assemble`. -/
def laneOf (w : Word) (k : Nat) : Byte := w.extractLsb' (8 * k) 8

/-- The wrapper on a byte sequence: exactly four bytes make a word, any other number is the
caller's contract violation (R36). -/
def wrap : List Byte → WrapResult
  | [b0, b1, b2, b3] => .word (assemble b0 b1 b2 b3)
  | _ => .contractViolation

/-- Decode four bytes through the wrapper. -/
def decodeBytes (byte0 byte1 byte2 byte3 : Byte) : DecodeResult :=
  decode (assemble byte0 byte1 byte2 byte3)

/-- Put one result in front of a stream's results. -/
def StreamResult.cons (r : DecodeResult) : StreamResult → StreamResult
  | .results rs => .results (r :: rs)
  | .contractViolation => .contractViolation

/-- Decode a byte stream four bytes at a time (95_test_vectors.md section 3): total on any bytes.
A last group of fewer than four bytes is the wrapper's contract violation (R36; log entry 14). -/
def decodeStream : List Byte → StreamResult
  | [] => .results []
  | b0 :: b1 :: b2 :: b3 :: rest => (decodeStream rest).cons (decodeBytes b0 b1 b2 b3)
  | _ => .contractViolation

/-- Instances side by side share nothing: each result depends on its own word alone (R37). -/
def decodeLanes (ws : List Word) : List DecodeResult := ws.map decode

/-! ### The encoder -/

def encR (f7 : BitVec 7) (rs2 rs1 : Register) (f3 : BitVec 3) (rd : Register)
    (cls : OpcodeClass) : Word :=
  f7 ++ rs2.index ++ rs1.index ++ f3 ++ rd.index ++ cls.code

def encI (imm : BitVec 12) (rs1 : BitVec 5) (f3 : BitVec 3) (rd : Register)
    (cls : OpcodeClass) : Word :=
  imm ++ rs1 ++ f3 ++ rd.index ++ cls.code

def encShift (f7 : BitVec 7) (shamt : BitVec 5) (rs1 : Register) (f3 : BitVec 3)
    (rd : Register) (cls : OpcodeClass) : Word :=
  f7 ++ shamt ++ rs1.index ++ f3 ++ rd.index ++ cls.code

def encS (imm : BitVec 32) (rs2 rs1 : Register) (f3 : BitVec 3) (cls : OpcodeClass) : Word :=
  imm.extractLsb' 5 7 ++ rs2.index ++ rs1.index ++ f3 ++ imm.extractLsb' 0 5 ++ cls.code

def encB (imm : BitVec 32) (rs2 rs1 : Register) (f3 : BitVec 3) (cls : OpcodeClass) : Word :=
  imm.extractLsb' 12 1 ++ imm.extractLsb' 5 6 ++ rs2.index ++ rs1.index ++ f3
    ++ imm.extractLsb' 1 4 ++ imm.extractLsb' 11 1 ++ cls.code

def encU (imm : BitVec 32) (rd : Register) (cls : OpcodeClass) : Word :=
  imm.extractLsb' 12 20 ++ rd.index ++ cls.code

def encJ (imm : BitVec 32) (rd : Register) (cls : OpcodeClass) : Word :=
  imm.extractLsb' 20 1 ++ imm.extractLsb' 1 10 ++ imm.extractLsb' 11 1 ++ imm.extractLsb' 12 8
    ++ rd.index ++ cls.code

/-- The word of a well-formed variant, from the format rows of R70 and the maps of R89 and R90.
FENCE and FENCE.I take the table's match words: the bits decode ignores are zero (R92; log
entry 7, DESIGN CHOICE). -/
def encode : Instr → Word
  | .lui rd imm => encU imm rd .lui
  | .auipc rd imm => encU imm rd .auipc
  | .jal rd imm => encJ imm rd .jal
  | .jalr rd rs1 imm => encI (imm.extractLsb' 0 12) rs1.index 0b000 rd .jalr
  | .beq rs1 rs2 imm => encB imm rs2 rs1 0b000 .branch
  | .bne rs1 rs2 imm => encB imm rs2 rs1 0b001 .branch
  | .blt rs1 rs2 imm => encB imm rs2 rs1 0b100 .branch
  | .bge rs1 rs2 imm => encB imm rs2 rs1 0b101 .branch
  | .bltu rs1 rs2 imm => encB imm rs2 rs1 0b110 .branch
  | .bgeu rs1 rs2 imm => encB imm rs2 rs1 0b111 .branch
  | .lb rd rs1 imm16 => encI (imm16.extractLsb' 0 12) rs1.index 0b000 rd .load
  | .lh rd rs1 imm16 => encI (imm16.extractLsb' 0 12) rs1.index 0b001 rd .load
  | .lw rd rs1 imm16 => encI (imm16.extractLsb' 0 12) rs1.index 0b010 rd .load
  | .lbu rd rs1 imm16 => encI (imm16.extractLsb' 0 12) rs1.index 0b100 rd .load
  | .lhu rd rs1 imm16 => encI (imm16.extractLsb' 0 12) rs1.index 0b101 rd .load
  | .sb rs1 rs2 imm => encS imm rs2 rs1 0b000 .store
  | .sh rs1 rs2 imm => encS imm rs2 rs1 0b001 .store
  | .sw rs1 rs2 imm => encS imm rs2 rs1 0b010 .store
  | .addi rd rs1 imm => encI (imm.extractLsb' 0 12) rs1.index 0b000 rd .opImm
  | .slti rd rs1 imm => encI (imm.extractLsb' 0 12) rs1.index 0b010 rd .opImm
  | .sltiu rd rs1 imm => encI (imm.extractLsb' 0 12) rs1.index 0b011 rd .opImm
  | .xori rd rs1 imm => encI (imm.extractLsb' 0 12) rs1.index 0b100 rd .opImm
  | .ori rd rs1 imm => encI (imm.extractLsb' 0 12) rs1.index 0b110 rd .opImm
  | .andi rd rs1 imm => encI (imm.extractLsb' 0 12) rs1.index 0b111 rd .opImm
  | .slli rd rs1 shamt => encShift 0b0000000 shamt rs1 0b001 rd .opImm
  | .srli rd rs1 shamt => encShift 0b0000000 shamt rs1 0b101 rd .opImm
  | .srai rd rs1 shamt => encShift 0b0100000 shamt rs1 0b101 rd .opImm
  | .add rd rs1 rs2 => encR 0b0000000 rs2 rs1 0b000 rd .op
  | .sub rd rs1 rs2 => encR 0b0100000 rs2 rs1 0b000 rd .op
  | .sll rd rs1 rs2 => encR 0b0000000 rs2 rs1 0b001 rd .op
  | .slt rd rs1 rs2 => encR 0b0000000 rs2 rs1 0b010 rd .op
  | .sltu rd rs1 rs2 => encR 0b0000000 rs2 rs1 0b011 rd .op
  | .xor rd rs1 rs2 => encR 0b0000000 rs2 rs1 0b100 rd .op
  | .srl rd rs1 rs2 => encR 0b0000000 rs2 rs1 0b101 rd .op
  | .sra rd rs1 rs2 => encR 0b0100000 rs2 rs1 0b101 rd .op
  | .or rd rs1 rs2 => encR 0b0000000 rs2 rs1 0b110 rd .op
  | .and rd rs1 rs2 => encR 0b0000000 rs2 rs1 0b111 rd .op
  | .fence => encI 0 0 0b000 .zero .miscMem
  | .fenceI => encI 0 0 0b001 .zero .miscMem
  | .ecall => ecallWord
  | .ebreak => ebreakWord
  | .mret => mretWord
  | .csrrw rd rs1 csr => encI csr rs1.index 0b001 rd .system
  | .csrrs rd rs1 csr => encI csr rs1.index 0b010 rd .system
  | .csrrc rd rs1 csr => encI csr rs1.index 0b011 rd .system
  | .csrrwi rd zimm csr => encI csr zimm 0b101 rd .system
  | .csrrsi rd zimm csr => encI csr zimm 0b110 rd .system
  | .csrrci rd zimm csr => encI csr zimm 0b111 rd .system

/-! ### The variant's tag, class and format -/

/-- The `tag` column of R31 (D8). -/
def Instr.tag : Instr → BitVec 6
  | .lui _ _ => 0
  | .auipc _ _ => 1
  | .jal _ _ => 2
  | .jalr _ _ _ => 3
  | .beq _ _ _ => 4
  | .bne _ _ _ => 5
  | .blt _ _ _ => 6
  | .bge _ _ _ => 7
  | .bltu _ _ _ => 8
  | .bgeu _ _ _ => 9
  | .lb _ _ _ => 10
  | .lh _ _ _ => 11
  | .lw _ _ _ => 12
  | .lbu _ _ _ => 13
  | .lhu _ _ _ => 14
  | .sb _ _ _ => 15
  | .sh _ _ _ => 16
  | .sw _ _ _ => 17
  | .addi _ _ _ => 18
  | .slti _ _ _ => 19
  | .sltiu _ _ _ => 20
  | .xori _ _ _ => 21
  | .ori _ _ _ => 22
  | .andi _ _ _ => 23
  | .slli _ _ _ => 24
  | .srli _ _ _ => 25
  | .srai _ _ _ => 26
  | .add _ _ _ => 27
  | .sub _ _ _ => 28
  | .sll _ _ _ => 29
  | .slt _ _ _ => 30
  | .sltu _ _ _ => 31
  | .xor _ _ _ => 32
  | .srl _ _ _ => 33
  | .sra _ _ _ => 34
  | .or _ _ _ => 35
  | .and _ _ _ => 36
  | .fence => 37
  | .fenceI => 38
  | .ecall => 39
  | .ebreak => 40
  | .mret => 41
  | .csrrw _ _ _ => 42
  | .csrrs _ _ _ => 43
  | .csrrc _ _ _ => 44
  | .csrrwi _ _ _ => 45
  | .csrrsi _ _ _ => 46
  | .csrrci _ _ _ => 47

/-- The class of the variant with a tag (the `class` column of R31). -/
def classOfTag (t : BitVec 6) : Option OpcodeClass :=
  if t.toNat = 0 then some .lui
  else if t.toNat = 1 then some .auipc
  else if t.toNat = 2 then some .jal
  else if t.toNat = 3 then some .jalr
  else if t.toNat ≤ 9 then some .branch
  else if t.toNat ≤ 14 then some .load
  else if t.toNat ≤ 17 then some .store
  else if t.toNat ≤ 26 then some .opImm
  else if t.toNat ≤ 36 then some .op
  else if t.toNat ≤ 38 then some .miscMem
  else if t.toNat ≤ 47 then some .system
  else none

/-- The format whose fields a variant carries (R70, R31). -/
def formatOfTag (t : BitVec 6) : Option Format :=
  match classOfTag t with
  | none => none
  | some .lui => some .u
  | some .auipc => some .u
  | some .jal => some .j
  | some .jalr => some .i
  | some .branch => some .b
  | some .load => some .i
  | some .store => some .s
  | some .opImm => if t.toNat ≤ 23 then some .i else some .iShift
  | some .op => some .r
  | some .miscMem => some .miscMem
  | some .system => some .iSystem

/-! ### The opcode table (R102), one row per variant -/

def rowsUpperJump : List OpcodeRow :=
  [⟨"LUI", 0x00000037, 0x0000007F, 0⟩, ⟨"AUIPC", 0x00000017, 0x0000007F, 1⟩,
   ⟨"JAL", 0x0000006F, 0x0000007F, 2⟩, ⟨"JALR", 0x00000067, 0x0000707F, 3⟩]

def rowsBranch : List OpcodeRow :=
  [⟨"BEQ", 0x00000063, 0x0000707F, 4⟩, ⟨"BNE", 0x00001063, 0x0000707F, 5⟩,
   ⟨"BLT", 0x00004063, 0x0000707F, 6⟩, ⟨"BGE", 0x00005063, 0x0000707F, 7⟩,
   ⟨"BLTU", 0x00006063, 0x0000707F, 8⟩, ⟨"BGEU", 0x00007063, 0x0000707F, 9⟩]

def rowsLoadStore : List OpcodeRow :=
  [⟨"LB", 0x00000003, 0x0000707F, 10⟩, ⟨"LH", 0x00001003, 0x0000707F, 11⟩,
   ⟨"LW", 0x00002003, 0x0000707F, 12⟩, ⟨"LBU", 0x00004003, 0x0000707F, 13⟩,
   ⟨"LHU", 0x00005003, 0x0000707F, 14⟩, ⟨"SB", 0x00000023, 0x0000707F, 15⟩,
   ⟨"SH", 0x00001023, 0x0000707F, 16⟩, ⟨"SW", 0x00002023, 0x0000707F, 17⟩]

def rowsOpImm : List OpcodeRow :=
  [⟨"ADDI", 0x00000013, 0x0000707F, 18⟩, ⟨"SLTI", 0x00002013, 0x0000707F, 19⟩,
   ⟨"SLTIU", 0x00003013, 0x0000707F, 20⟩, ⟨"XORI", 0x00004013, 0x0000707F, 21⟩,
   ⟨"ORI", 0x00006013, 0x0000707F, 22⟩, ⟨"ANDI", 0x00007013, 0x0000707F, 23⟩,
   ⟨"SLLI", 0x00001013, 0xFE00707F, 24⟩, ⟨"SRLI", 0x00005013, 0xFE00707F, 25⟩,
   ⟨"SRAI", 0x40005013, 0xFE00707F, 26⟩]

def rowsOp : List OpcodeRow :=
  [⟨"ADD", 0x00000033, 0xFE00707F, 27⟩, ⟨"SUB", 0x40000033, 0xFE00707F, 28⟩,
   ⟨"SLL", 0x00001033, 0xFE00707F, 29⟩, ⟨"SLT", 0x00002033, 0xFE00707F, 30⟩,
   ⟨"SLTU", 0x00003033, 0xFE00707F, 31⟩, ⟨"XOR", 0x00004033, 0xFE00707F, 32⟩,
   ⟨"SRL", 0x00005033, 0xFE00707F, 33⟩, ⟨"SRA", 0x40005033, 0xFE00707F, 34⟩,
   ⟨"OR", 0x00006033, 0xFE00707F, 35⟩, ⟨"AND", 0x00007033, 0xFE00707F, 36⟩]

def rowsFenceSystem : List OpcodeRow :=
  [⟨"FENCE", 0x0000000F, 0x0000707F, 37⟩, ⟨"FENCE.I", 0x0000100F, 0x0000707F, 38⟩,
   ⟨"ECALL", 0x00000073, 0xFFFFFFFF, 39⟩, ⟨"EBREAK", 0x00100073, 0xFFFFFFFF, 40⟩,
   ⟨"MRET", 0x30200073, 0xFFFFFFFF, 41⟩]

def rowsCsr : List OpcodeRow :=
  [⟨"CSRRW", 0x00001073, 0x0000707F, 42⟩, ⟨"CSRRS", 0x00002073, 0x0000707F, 43⟩,
   ⟨"CSRRC", 0x00003073, 0x0000707F, 44⟩, ⟨"CSRRWI", 0x00005073, 0x0000707F, 45⟩,
   ⟨"CSRRSI", 0x00006073, 0x0000707F, 46⟩, ⟨"CSRRCI", 0x00007073, 0x0000707F, 47⟩]

/-- The 48 rows of opcode_table.json, in its order (R102). -/
def opcodeTable : List OpcodeRow :=
  rowsUpperJump ++ rowsBranch ++ rowsLoadStore ++ rowsOpImm ++ rowsOp ++ rowsFenceSystem ++ rowsCsr

/-- A word matches a row: `(word & mask) == match` (R102). -/
def OpcodeRow.hits (row : OpcodeRow) (w : Word) : Prop := w &&& row.mask = row.pattern

/-! ### The host's reading of a table word -/

/-- The word of an opcode-table row given as a number, the bits above `nbits` zero. -/
def tableWord (nbits w : Nat) : Word := BitVec.ofNat 32 (w % 2 ^ nbits)

/-- The variant the decoder reads from a table word, laid out as four bytes (R51). -/
def decodeTableWord (nbits w : Nat) : Option Instr :=
  let t := tableWord nbits w
  match decodeBytes (laneOf t 0) (laneOf t 1) (laneOf t 2) (laneOf t 3) with
  | .ok ins => some ins.operation
  | .err _ => none

end Sys2Proof
end

