-- ==== Sys2Proof/Machine/State.lean ====
section
/-! DEFINITION. The state as plain data, the stop reasons and the state after reset.
The block has no state element (10_state.md R20); State holds the value on every port: what the
outside presents, and what the last evaluation settled on the outputs (log entry 3). -/

namespace Sys2Proof.Machine

/-- No step of this machine faults: `decode` is total (R85) and an error is an ordinary result
(R300, R305), so no meaning and no step raises a fault and the type has no constructor. -/
inductive Fault where
deriving DecidableEq, Repr

/-- Why a step can have no meaning. -/
inductive Refusal where
  /-- An instruction of the opcode table without a meaning; raised by an arm of `exec` only, and by
  none now. Safe: the machine stops where the hardware goes on. -/
  | notModelled (mnemonic : String)
deriving DecidableEq, Repr

/-- What is presented in front of the core (R35, R36): the assembled word, or, in an instance with
the boundary wrapper, its four byte lanes (log entry 6). -/
inductive Front where
  | word (w : Word)
  | bytes (byte0 byte1 byte2 byte3 : Byte)
deriving DecidableEq, Repr

/-- Everything the outside presents: the front, and the arguments of the resolver's direct calls
`resolve`, `to_index` and `list_from_bitmask` (R24, R26, R27; log entry 2). -/
structure Inputs where
  front : Front
  resolverRaw : BitVec 8
  resolverReg : Register
  resolverMask : BitVec 32
deriving DecidableEq, Repr

/-- The output bundle of R35, port by port (`err_kind`, `err_a`, `err_b` are `errKind`, `errA`,
`errB`). -/
structure Ports where
  ok : BitVec 1
  width : BitVec 1
  op : BitVec 6
  rd : BitVec 5
  rs1 : BitVec 5
  rs2 : BitVec 5
  imm : BitVec 32
  shamt : BitVec 5
  zimm : BitVec 5
  csr : BitVec 12
  errKind : BitVec 2
  errA : BitVec 8
  errB : BitVec 8
deriving DecidableEq, Repr

/-- The results of the resolver's direct calls (R24, R26, R27). -/
structure ResolverOut where
  resolved : ResolveResult
  index : BitVec 5
  list : List Register
deriving DecidableEq, Repr

/-- The machine: its inputs, its output bundle, the reconstructor's six wires (R80) and the
resolver's results. -/
structure State where
  inputs : Inputs
  ports : Ports
  imms : Immediates
  resolver : ResolverOut
deriving DecidableEq, Repr

/-- Right after reset. The inputs are the model's choice (log entry 1); every output has the value
R330 gives it, that of the word presented: for word 0 the error `UnrecognizedOpcode(0)`, whose
bundle is all zero (95_test_vectors.md section 2.5). -/
def State.reset : State :=
  { inputs := { front := .word 0, resolverRaw := 0, resolverReg := ⟨0⟩, resolverMask := 0 }
    ports := { ok := 0, width := 0, op := 0, rd := 0, rs1 := 0, rs2 := 0, imm := 0, shamt := 0,
               zimm := 0, csr := 0, errKind := 0, errA := 0, errB := 0 }
    imms := { i := 0, l := 0, s := 0, b := 0, u := 0, j := 0 }
    resolver := { resolved := .ok ⟨0⟩, index := 0, list := [] } }

end Sys2Proof.Machine
end

