-- ==== Sys2Proof/Machine/Flags.lean ====
section
/-! DEFINITION. The block has no flags (10_state.md R20; every family rule says "Flags: none").
What tells one outcome from the other is the status side of the bundle: `ok` and the error ports
(R34, R35), which this file computes from a decode error. -/

namespace Sys2Proof.Machine

/-- The kind code of R34 (D9). -/
def errorKind : DecodeError → BitVec 2
  | .unrecognizedOpcode _ => 0
  | .invalidFunct3 _ _ => 1
  | .invalidFunct7 _ _ => 2
  | .invalidRegister _ => 3

/-- `err_a`: the first payload, zero-extended to 8 bits (R35). -/
def errorFirst : DecodeError → BitVec 8
  | .unrecognizedOpcode value => value.setWidth 8
  | .invalidFunct3 opcode _ => opcode.setWidth 8
  | .invalidFunct7 funct3 _ => funct3.setWidth 8
  | .invalidRegister value => value

/-- `err_b`: the second payload, zero-extended to 8 bits, 0 for a one-payload kind (R35). -/
def errorSecond : DecodeError → BitVec 8
  | .unrecognizedOpcode _ => 0
  | .invalidFunct3 _ value => value.setWidth 8
  | .invalidFunct7 _ value => value.setWidth 8
  | .invalidRegister _ => 0

end Sys2Proof.Machine
end

