-- ==== Sys2Proof/Machine/Operands.lean ====
section
/-! DEFINITION. The operand side of the output bundle (10_state.md R31, R35): which ports each
operand form drives, and the fields of a variant as R35 reads them. A port whose field the variant
does not carry is driven to 0. -/

namespace Sys2Proof.Machine

/-- The seven operand ports of R35. -/
structure OperandPorts where
  rd : BitVec 5 := 0
  rs1 : BitVec 5 := 0
  rs2 : BitVec 5 := 0
  imm : BitVec 32 := 0
  shamt : BitVec 5 := 0
  zimm : BitVec 5 := 0
  csr : BitVec 12 := 0
deriving DecidableEq, Repr

/-- A marker carries no field (R31), and so does an error (R35). -/
def operandsNone : OperandPorts := {}

/-- U and J forms: rd and imm. -/
def operandsRdImm (rd : Register) (imm : BitVec 32) : OperandPorts :=
  { rd := toIndex rd, imm := imm }

/-- I form: rd, rs1 and imm. -/
def operandsRdRs1Imm (rd rs1 : Register) (imm : BitVec 32) : OperandPorts :=
  { rd := toIndex rd, rs1 := toIndex rs1, imm := imm }

/-- LOAD: `imm[15:0] = imm16` and `imm[31:16] = 0` (R35). -/
def operandsLoad (rd rs1 : Register) (imm16 : BitVec 16) : OperandPorts :=
  { rd := toIndex rd, rs1 := toIndex rs1, imm := imm16.setWidth 32 }

/-- B and S forms: rs1, rs2 and imm. -/
def operandsRs1Rs2Imm (rs1 rs2 : Register) (imm : BitVec 32) : OperandPorts :=
  { rs1 := toIndex rs1, rs2 := toIndex rs2, imm := imm }

/-- I-shift form: rd, rs1 and shamt. -/
def operandsShift (rd rs1 : Register) (shamt : BitVec 5) : OperandPorts :=
  { rd := toIndex rd, rs1 := toIndex rs1, shamt := shamt }

/-- R form: rd, rs1 and rs2. -/
def operandsRegs (rd rs1 rs2 : Register) : OperandPorts :=
  { rd := toIndex rd, rs1 := toIndex rs1, rs2 := toIndex rs2 }

/-- CSR register forms: rd, rs1 and csr (R210). -/
def operandsCsrReg (rd rs1 : Register) (csr : BitVec 12) : OperandPorts :=
  { rd := toIndex rd, rs1 := toIndex rs1, csr := csr }

/-- CSR immediate forms: rd, zimm and csr; zimm is not extended (R210). -/
def operandsCsrImm (rd : Register) (zimm : BitVec 5) (csr : BitVec 12) : OperandPorts :=
  { rd := toIndex rd, zimm := zimm, csr := csr }

end Sys2Proof.Machine
end

