-- ==== Sys2Proof/Machine/Ops.lean ====
section
/-! DEFINITION. The named operations over the ports: presenting an input, reading the word,
settling the sub-blocks that do not depend on the variant, driving a success (`emit`) and driving an
error (`raise`, the block's only exceptional outcome, R300). -/

namespace Sys2Proof.Machine

/-- The word the core sees: the presented word, or the wrapper's little-endian assembly of the four
lanes (R51, R52). -/
def Front.toWord : Front → Word
  | .word w => w
  | .bytes b0 b1 b2 b3 => assemble b0 b1 b2 b3

/-- The `word` input of the core. -/
def State.word (s : State) : Word := s.inputs.front.toWord

/-- A front of the same kind on which the core sees `w`. -/
def Front.showing (w : Word) : Front → Front
  | .word _ => .word w
  | .bytes _ _ _ _ => .bytes (laneOf w 0) (laneOf w 1) (laneOf w 2) (laneOf w 3)

/-- The outside presents another word; no output has settled yet. -/
def State.present (w : Word) (s : State) : State :=
  { s with inputs := { s.inputs with front := s.inputs.front.showing w } }

/-- The resolver's answers to the direct calls presented (R24, R26, R27). -/
def resolverOut (i : Inputs) : ResolverOut :=
  { resolved := resolve i.resolverRaw, index := toIndex i.resolverReg,
    list := listFromBitmask i.resolverMask }

/-- Settle the sub-blocks whose outputs do not depend on the variant: the immediate reconstructor,
which computes all six values from the word (R80), and the resolver's direct calls. -/
def State.settleSubBlocks (s : State) : State :=
  { s with imms := reconstruct s.word, resolver := resolverOut s.inputs }

/-- The bundle of a success (R35): ok = 1, width = W32, the tag, the operand ports, and every error
port 0. -/
def okPorts (tag : BitVec 6) (o : OperandPorts) : Ports :=
  { ok := 1, width := 0, op := tag, rd := o.rd, rs1 := o.rs1, rs2 := o.rs2, imm := o.imm,
    shamt := o.shamt, zimm := o.zimm, csr := o.csr, errKind := 0, errA := 0, errB := 0 }

/-- The bundle of an error (R35): ok = 0, every instruction port 0, and kind and payloads on the
error ports. -/
def errPorts (e : DecodeError) : Ports :=
  { ok := 0, width := 0, op := 0, rd := 0, rs1 := 0, rs2 := 0, imm := 0, shamt := 0, zimm := 0,
    csr := 0, errKind := errorKind e, errA := errorFirst e, errB := errorSecond e }

/-- `emit V` on the ports (R11, R35): the effect every instruction has. -/
def emit (tag : BitVec 6) (o : OperandPorts) (s : State) : Host.Outcome State Fault Refusal :=
  .next { s with ports := okPorts tag o }

/-- `raise E` on the ports (R11, R300, R305): the error is the result. Nothing is saved, no mode
changes and control is not redirected; there is no return from it (R308). -/
def raise (e : DecodeError) (s : State) : Host.Outcome State Fault Refusal :=
  .next { s with ports := errPorts e }

end Sys2Proof.Machine
end

