-- ==== Sys2Proof/Machine/Branches.lean ====
section
/-! DEFINITION. The six branches (42_branches.md): operands and offset are output, nothing is compared (R6). -/

namespace Sys2Proof.Machine

/-- BEQ (R131; tag 4 of R31). -/
def execBeq (rs1 rs2 : Register) (imm : BitVec 32) (s : State) : Host.Outcome State Fault Refusal :=
  emit 4 (operandsRs1Rs2Imm rs1 rs2 imm) s

/-- BNE (R132; tag 5 of R31). -/
def execBne (rs1 rs2 : Register) (imm : BitVec 32) (s : State) : Host.Outcome State Fault Refusal :=
  emit 5 (operandsRs1Rs2Imm rs1 rs2 imm) s

/-- BLT (R133; tag 6 of R31). -/
def execBlt (rs1 rs2 : Register) (imm : BitVec 32) (s : State) : Host.Outcome State Fault Refusal :=
  emit 6 (operandsRs1Rs2Imm rs1 rs2 imm) s

/-- BGE (R134; tag 7 of R31). -/
def execBge (rs1 rs2 : Register) (imm : BitVec 32) (s : State) : Host.Outcome State Fault Refusal :=
  emit 7 (operandsRs1Rs2Imm rs1 rs2 imm) s

/-- BLTU (R135; tag 8 of R31). -/
def execBltu (rs1 rs2 : Register) (imm : BitVec 32) (s : State) : Host.Outcome State Fault Refusal :=
  emit 8 (operandsRs1Rs2Imm rs1 rs2 imm) s

/-- BGEU (R136; tag 9 of R31). -/
def execBgeu (rs1 rs2 : Register) (imm : BitVec 32) (s : State) : Host.Outcome State Fault Refusal :=
  emit 9 (operandsRs1Rs2Imm rs1 rs2 imm) s

end Sys2Proof.Machine
end

