-- ==== Sys2Proof/Machine/Csr.lean ====
section
/-! DEFINITION. The six CSR instructions (48_csr.md): the CSR number is output and not judged (R23, R210, R310). -/

namespace Sys2Proof.Machine

/-- CSRRW (R211; tag 42 of R31). -/
def execCsrrw (rd rs1 : Register) (csr : BitVec 12) (s : State) : Host.Outcome State Fault Refusal :=
  emit 42 (operandsCsrReg rd rs1 csr) s

/-- CSRRS (R212; tag 43 of R31). -/
def execCsrrs (rd rs1 : Register) (csr : BitVec 12) (s : State) : Host.Outcome State Fault Refusal :=
  emit 43 (operandsCsrReg rd rs1 csr) s

/-- CSRRC (R213; tag 44 of R31). -/
def execCsrrc (rd rs1 : Register) (csr : BitVec 12) (s : State) : Host.Outcome State Fault Refusal :=
  emit 44 (operandsCsrReg rd rs1 csr) s

/-- CSRRWI (R214; tag 45 of R31). -/
def execCsrrwi (rd : Register) (zimm : BitVec 5) (csr : BitVec 12) (s : State) : Host.Outcome State Fault Refusal :=
  emit 45 (operandsCsrImm rd zimm csr) s

/-- CSRRSI (R215; tag 46 of R31). -/
def execCsrrsi (rd : Register) (zimm : BitVec 5) (csr : BitVec 12) (s : State) : Host.Outcome State Fault Refusal :=
  emit 46 (operandsCsrImm rd zimm csr) s

/-- CSRRCI (R216; tag 47 of R31). -/
def execCsrrci (rd : Register) (zimm : BitVec 5) (csr : BitVec 12) (s : State) : Host.Outcome State Fault Refusal :=
  emit 47 (operandsCsrImm rd zimm csr) s

end Sys2Proof.Machine
end

