-- ==== Sys2Proof/Machine/FenceSystem.lean ====
section
/-! DEFINITION. The five zero-operand markers (47_fence_system.md): ordinary `Ok` results that order, trap and restore nothing (R58, R305, R308). -/

namespace Sys2Proof.Machine

/-- FENCE (R201; tag 37 of R31). -/
def execFence (s : State) : Host.Outcome State Fault Refusal :=
  emit 37 operandsNone s

/-- FENCE.I (R202; tag 38 of R31). -/
def execFenceI (s : State) : Host.Outcome State Fault Refusal :=
  emit 38 operandsNone s

/-- ECALL (R204; tag 39 of R31). -/
def execEcall (s : State) : Host.Outcome State Fault Refusal :=
  emit 39 operandsNone s

/-- EBREAK (R205; tag 40 of R31). -/
def execEbreak (s : State) : Host.Outcome State Fault Refusal :=
  emit 40 operandsNone s

/-- MRET (R206; tag 41 of R31). -/
def execMret (s : State) : Host.Outcome State Fault Refusal :=
  emit 41 operandsNone s

end Sys2Proof.Machine
end

