-- ==== Sys2Proof/Machine/Jumps.lean ====
section
/-! DEFINITION. JAL and JALR (41_jumps.md): the offset is output; target, link and alignment are the consumer's (R21, R53). -/

namespace Sys2Proof.Machine

/-- JAL (R125; tag 2 of R31). -/
def execJal (rd : Register) (imm : BitVec 32) (s : State) : Host.Outcome State Fault Refusal :=
  emit 2 (operandsRdImm rd imm) s

/-- JALR (R126; tag 3 of R31). -/
def execJalr (rd rs1 : Register) (imm : BitVec 32) (s : State) : Host.Outcome State Fault Refusal :=
  emit 3 (operandsRdRs1Imm rd rs1 imm) s

end Sys2Proof.Machine
end

