-- ==== Sys2Proof/Machine/Loads.lean ====
section
/-! DEFINITION. The five loads (43_loads.md): the offset leaves in its 16-bit container (R35, R75). -/

namespace Sys2Proof.Machine

/-- LB (R141; tag 10 of R31). -/
def execLb (rd rs1 : Register) (imm16 : BitVec 16) (s : State) : Host.Outcome State Fault Refusal :=
  emit 10 (operandsLoad rd rs1 imm16) s

/-- LH (R142; tag 11 of R31). -/
def execLh (rd rs1 : Register) (imm16 : BitVec 16) (s : State) : Host.Outcome State Fault Refusal :=
  emit 11 (operandsLoad rd rs1 imm16) s

/-- LW (R143; tag 12 of R31). -/
def execLw (rd rs1 : Register) (imm16 : BitVec 16) (s : State) : Host.Outcome State Fault Refusal :=
  emit 12 (operandsLoad rd rs1 imm16) s

/-- LBU (R144; tag 13 of R31). -/
def execLbu (rd rs1 : Register) (imm16 : BitVec 16) (s : State) : Host.Outcome State Fault Refusal :=
  emit 13 (operandsLoad rd rs1 imm16) s

/-- LHU (R145; tag 14 of R31). -/
def execLhu (rd rs1 : Register) (imm16 : BitVec 16) (s : State) : Host.Outcome State Fault Refusal :=
  emit 14 (operandsLoad rd rs1 imm16) s

end Sys2Proof.Machine
end

