-- ==== Sys2Proof/Machine/Op.lean ====
section
/-! DEFINITION. The ten OP instructions (46_op.md). -/

namespace Sys2Proof.Machine

/-- ADD (R181; tag 27 of R31). -/
def execAdd (rd rs1 rs2 : Register) (s : State) : Host.Outcome State Fault Refusal :=
  emit 27 (operandsRegs rd rs1 rs2) s

/-- SUB (R182; tag 28 of R31). -/
def execSub (rd rs1 rs2 : Register) (s : State) : Host.Outcome State Fault Refusal :=
  emit 28 (operandsRegs rd rs1 rs2) s

/-- SLL (R183; tag 29 of R31). -/
def execSll (rd rs1 rs2 : Register) (s : State) : Host.Outcome State Fault Refusal :=
  emit 29 (operandsRegs rd rs1 rs2) s

/-- SLT (R184; tag 30 of R31). -/
def execSlt (rd rs1 rs2 : Register) (s : State) : Host.Outcome State Fault Refusal :=
  emit 30 (operandsRegs rd rs1 rs2) s

/-- SLTU (R185; tag 31 of R31). -/
def execSltu (rd rs1 rs2 : Register) (s : State) : Host.Outcome State Fault Refusal :=
  emit 31 (operandsRegs rd rs1 rs2) s

/-- XOR (R186; tag 32 of R31). -/
def execXor (rd rs1 rs2 : Register) (s : State) : Host.Outcome State Fault Refusal :=
  emit 32 (operandsRegs rd rs1 rs2) s

/-- SRL (R187; tag 33 of R31). -/
def execSrl (rd rs1 rs2 : Register) (s : State) : Host.Outcome State Fault Refusal :=
  emit 33 (operandsRegs rd rs1 rs2) s

/-- SRA (R188; tag 34 of R31). -/
def execSra (rd rs1 rs2 : Register) (s : State) : Host.Outcome State Fault Refusal :=
  emit 34 (operandsRegs rd rs1 rs2) s

/-- OR (R189; tag 35 of R31). -/
def execOr (rd rs1 rs2 : Register) (s : State) : Host.Outcome State Fault Refusal :=
  emit 35 (operandsRegs rd rs1 rs2) s

/-- AND (R190; tag 36 of R31). -/
def execAnd (rd rs1 rs2 : Register) (s : State) : Host.Outcome State Fault Refusal :=
  emit 36 (operandsRegs rd rs1 rs2) s

end Sys2Proof.Machine
end

