-- ==== Sys2Proof/Machine/OpImm.lean ====
section
/-! DEFINITION. The nine OP-IMM instructions (45_op_imm.md). -/

namespace Sys2Proof.Machine

/-- ADDI (R161; tag 18 of R31). -/
def execAddi (rd rs1 : Register) (imm : BitVec 32) (s : State) : Host.Outcome State Fault Refusal :=
  emit 18 (operandsRdRs1Imm rd rs1 imm) s

/-- SLTI (R162; tag 19 of R31). -/
def execSlti (rd rs1 : Register) (imm : BitVec 32) (s : State) : Host.Outcome State Fault Refusal :=
  emit 19 (operandsRdRs1Imm rd rs1 imm) s

/-- SLTIU (R163; tag 20 of R31). -/
def execSltiu (rd rs1 : Register) (imm : BitVec 32) (s : State) : Host.Outcome State Fault Refusal :=
  emit 20 (operandsRdRs1Imm rd rs1 imm) s

/-- XORI (R164; tag 21 of R31). -/
def execXori (rd rs1 : Register) (imm : BitVec 32) (s : State) : Host.Outcome State Fault Refusal :=
  emit 21 (operandsRdRs1Imm rd rs1 imm) s

/-- ORI (R165; tag 22 of R31). -/
def execOri (rd rs1 : Register) (imm : BitVec 32) (s : State) : Host.Outcome State Fault Refusal :=
  emit 22 (operandsRdRs1Imm rd rs1 imm) s

/-- ANDI (R166; tag 23 of R31). -/
def execAndi (rd rs1 : Register) (imm : BitVec 32) (s : State) : Host.Outcome State Fault Refusal :=
  emit 23 (operandsRdRs1Imm rd rs1 imm) s

/-- SLLI (R167; tag 24 of R31). -/
def execSlli (rd rs1 : Register) (shamt : BitVec 5) (s : State) : Host.Outcome State Fault Refusal :=
  emit 24 (operandsShift rd rs1 shamt) s

/-- SRLI (R168; tag 25 of R31). -/
def execSrli (rd rs1 : Register) (shamt : BitVec 5) (s : State) : Host.Outcome State Fault Refusal :=
  emit 25 (operandsShift rd rs1 shamt) s

/-- SRAI (R169; tag 26 of R31). -/
def execSrai (rd rs1 : Register) (shamt : BitVec 5) (s : State) : Host.Outcome State Fault Refusal :=
  emit 26 (operandsShift rd rs1 shamt) s

end Sys2Proof.Machine
end

