-- ==== Sys2Proof/Machine/Stores.lean ====
section
/-! DEFINITION. The three stores (44_stores.md): rs1 is the base, rs2 the data register; nothing is written (R50). -/

namespace Sys2Proof.Machine

/-- SB (R151; tag 15 of R31). -/
def execSb (rs1 rs2 : Register) (imm : BitVec 32) (s : State) : Host.Outcome State Fault Refusal :=
  emit 15 (operandsRs1Rs2Imm rs1 rs2 imm) s

/-- SH (R152; tag 16 of R31). -/
def execSh (rs1 rs2 : Register) (imm : BitVec 32) (s : State) : Host.Outcome State Fault Refusal :=
  emit 16 (operandsRs1Rs2Imm rs1 rs2 imm) s

/-- SW (R153; tag 17 of R31). -/
def execSw (rs1 rs2 : Register) (imm : BitVec 32) (s : State) : Host.Outcome State Fault Refusal :=
  emit 17 (operandsRs1Rs2Imm rs1 rs2 imm) s

end Sys2Proof.Machine
end

