-- ==== Sys2Proof/Machine/UpperImmediate.lean ====
section
/-! DEFINITION. LUI and AUIPC (40_upper_immediate.md): the U-immediate is output as it is, never added to a pc (R21). -/

namespace Sys2Proof.Machine

/-- LUI (R120; tag 0 of R31). -/
def execLui (rd : Register) (imm : BitVec 32) (s : State) : Host.Outcome State Fault Refusal :=
  emit 0 (operandsRdImm rd imm) s

/-- AUIPC (R121; tag 1 of R31). -/
def execAuipc (rd : Register) (imm : BitVec 32) (s : State) : Host.Outcome State Fault Refusal :=
  emit 1 (operandsRdImm rd imm) s

end Sys2Proof.Machine
end

