-- ==== Sys2Proof/Machine/Step.lean ====
section
/-! DEFINITION. One step: one evaluation of the block on what is presented (R334, R335). -/

namespace Sys2Proof.Machine

/-- One evaluation: the sub-blocks settle, and the output bundle takes the decode of the presented
word: the decoded instruction's drive, or the error (R1, R4, R80, R305). -/
def step (s : State) : Host.Outcome State Fault Refusal :=
  match decode s.word with
  | .ok ins => exec ins.operation s.settleSubBlocks
  | .err e => raise e s.settleSubBlocks

/-- Present an opcode-table word on the block's input (on the byte lanes where the instance has the
wrapper). A program comes to run by being presented word by word from outside (log entry 4). -/
def State.withFetchWord (s : State) (nbits w : Nat) : State := s.present (tableWord nbits w)

/-- Replicated instances, one evaluation each: they share nothing (R37). -/
def stepLanes (lanes : List State) : List (Host.Outcome State Fault Refusal) := lanes.map step

/-- The outside presents one word after another and reads the bundle after each evaluation. -/
def runWords : List Word → State → List Ports
  | [], _ => []
  | w :: ws, s =>
    match step (s.present w) with
    | .next s' => s'.ports :: runWords ws s'
    | .fault _ => []
    | .refused _ => []

end Sys2Proof.Machine
end

