-- ==== Sys2Proof/Machine/Pseudo.lean ====
section
/-! DEFINITION. The pseudo-instructions of 30_encoding.md R104 and the base variants each assembles
to. Notation only: the decoder never outputs one, it outputs the expansion's base variants (R93,
R104). An upper part is given as the decoded `imm` (`imm20 << 12`, R103); log entry 15. -/

namespace Sys2Proof.Machine

def x0 : Register := ⟨0⟩
def x1 : Register := ⟨1⟩
def x6 : Register := ⟨6⟩

/-- The low 12 bits, sign-extended: what ADDI or JALR adds back. -/
def loPart (v : BitVec 32) : BitVec 32 := (v.extractLsb' 0 12).signExtend 32

/-- The upper part, adjusted by +1 when the low part is negative (R104). -/
def hiPart (v : BitVec 32) : BitVec 32 := v - loPart v

/-- The pseudo-instructions of R104 with their operands. -/
inductive Pseudo where
  | nop
  | li (rd : Register) (imm : BitVec 32)
  | mv (rd rs : Register) | not (rd rs : Register) | neg (rd rs : Register)
  | seqz (rd rs : Register) | snez (rd rs : Register) | sltz (rd rs : Register)
  | sgtz (rd rs : Register)
  | beqz (rs : Register) (off : BitVec 32) | bnez (rs : Register) (off : BitVec 32)
  | blez (rs : Register) (off : BitVec 32) | bgez (rs : Register) (off : BitVec 32)
  | bltz (rs : Register) (off : BitVec 32) | bgtz (rs : Register) (off : BitVec 32)
  | bgt (a b : Register) (off : BitVec 32) | ble (a b : Register) (off : BitVec 32)
  | bgtu (a b : Register) (off : BitVec 32) | bleu (a b : Register) (off : BitVec 32)
  | j (off : BitVec 32) | jal (off : BitVec 32)
  | jr (rs : Register) | jalr (rs : Register) | ret
  | call (off : BitVec 32) | tail (off : BitVec 32)
  | la (rd : Register) (off : BitVec 32) | lla (rd : Register) (off : BitVec 32)
  | fence
  | csrr (rd : Register) (csr : BitVec 12)
  | csrw (csr : BitVec 12) (rs : Register) | csrs (csr : BitVec 12) (rs : Register)
  | csrc (csr : BitVec 12) (rs : Register)
  | csrwi (csr : BitVec 12) (z : BitVec 5) | csrsi (csr : BitVec 12) (z : BitVec 5)
  | csrci (csr : BitVec 12) (z : BitVec 5)
  | rdcycle (rd : Register) | rdtime (rd : Register) | rdinstret (rd : Register)
deriving DecidableEq, Repr

/-- The expansion column of R104. -/
def expand : Pseudo → List Instr
  | .nop => [.addi x0 x0 0]
  | .li rd imm =>
    if imm12Ok imm then [.addi rd x0 imm] else [.lui rd (hiPart imm), .addi rd rd (loPart imm)]
  | .mv rd rs => [.addi rd rs 0]
  | .not rd rs => [.xori rd rs (-1)]
  | .neg rd rs => [.sub rd x0 rs]
  | .seqz rd rs => [.sltiu rd rs 1]
  | .snez rd rs => [.sltu rd x0 rs]
  | .sltz rd rs => [.slt rd rs x0]
  | .sgtz rd rs => [.slt rd x0 rs]
  | .beqz rs off => [.beq rs x0 off]
  | .bnez rs off => [.bne rs x0 off]
  | .blez rs off => [.bge x0 rs off]
  | .bgez rs off => [.bge rs x0 off]
  | .bltz rs off => [.blt rs x0 off]
  | .bgtz rs off => [.blt x0 rs off]
  | .bgt a b off => [.blt b a off]
  | .ble a b off => [.bge b a off]
  | .bgtu a b off => [.bltu b a off]
  | .bleu a b off => [.bgeu b a off]
  | .j off => [.jal x0 off]
  | .jal off => [.jal x1 off]
  | .jr rs => [.jalr x0 rs 0]
  | .jalr rs => [.jalr x1 rs 0]
  | .ret => [.jalr x0 x1 0]
  | .call off => [.auipc x1 (hiPart off), .jalr x1 x1 (loPart off)]
  | .tail off => [.auipc x6 (hiPart off), .jalr x0 x6 (loPart off)]
  | .la rd off => [.auipc rd (hiPart off), .addi rd rd (loPart off)]
  | .lla rd off => [.auipc rd (hiPart off), .addi rd rd (loPart off)]
  | .fence => [.fence]
  | .csrr rd csr => [.csrrs rd x0 csr]
  | .csrw csr rs => [.csrrw x0 rs csr]
  | .csrs csr rs => [.csrrs x0 rs csr]
  | .csrc csr rs => [.csrrc x0 rs csr]
  | .csrwi csr z => [.csrrwi x0 z csr]
  | .csrsi csr z => [.csrrsi x0 z csr]
  | .csrci csr z => [.csrrci x0 z csr]
  | .rdcycle rd => [.csrrs rd x0 0xC00]
  | .rdtime rd => [.csrrs rd x0 0xC01]
  | .rdinstret rd => [.csrrs rd x0 0xC02]

/-- The offset of a branch or jump pseudo-instruction is one its format can hold. -/
def Pseudo.wellFormed (p : Pseudo) : Bool := (expand p).all Instr.wellFormed

end Sys2Proof.Machine
end

