-- ==== Sys2Proof/Machine/Bundle.lean ====
section
/-! DEFINITION. The output bundle as a function of the abstract result (10_state.md R35): for each
port, the variant's field, else 0. It is written port by port, as the rule's table is, and not from
the meanings, so that the two can be held against each other. -/

namespace Sys2Proof.Machine

/-- Port `rd`: the rd field of the variant, else 0. -/
def portRd : Instr → BitVec 5
  | .lui rd _ | .auipc rd _ | .jal rd _ => toIndex rd
  | .jalr rd _ _ => toIndex rd
  | .lb rd _ _ | .lh rd _ _ | .lw rd _ _ | .lbu rd _ _ | .lhu rd _ _ => toIndex rd
  | .addi rd _ _ | .slti rd _ _ | .sltiu rd _ _ | .xori rd _ _ | .ori rd _ _ | .andi rd _ _ =>
    toIndex rd
  | .slli rd _ _ | .srli rd _ _ | .srai rd _ _ => toIndex rd
  | .add rd _ _ | .sub rd _ _ | .sll rd _ _ | .slt rd _ _ | .sltu rd _ _ | .xor rd _ _
  | .srl rd _ _ | .sra rd _ _ | .or rd _ _ | .and rd _ _ => toIndex rd
  | .csrrw rd _ _ | .csrrs rd _ _ | .csrrc rd _ _ => toIndex rd
  | .csrrwi rd _ _ | .csrrsi rd _ _ | .csrrci rd _ _ => toIndex rd
  | _ => 0

/-- Port `rs1`. -/
def portRs1 : Instr → BitVec 5
  | .jalr _ rs1 _ => toIndex rs1
  | .beq rs1 _ _ | .bne rs1 _ _ | .blt rs1 _ _ | .bge rs1 _ _ | .bltu rs1 _ _ | .bgeu rs1 _ _ =>
    toIndex rs1
  | .lb _ rs1 _ | .lh _ rs1 _ | .lw _ rs1 _ | .lbu _ rs1 _ | .lhu _ rs1 _ => toIndex rs1
  | .sb rs1 _ _ | .sh rs1 _ _ | .sw rs1 _ _ => toIndex rs1
  | .addi _ rs1 _ | .slti _ rs1 _ | .sltiu _ rs1 _ | .xori _ rs1 _ | .ori _ rs1 _ | .andi _ rs1 _ =>
    toIndex rs1
  | .slli _ rs1 _ | .srli _ rs1 _ | .srai _ rs1 _ => toIndex rs1
  | .add _ rs1 _ | .sub _ rs1 _ | .sll _ rs1 _ | .slt _ rs1 _ | .sltu _ rs1 _ | .xor _ rs1 _
  | .srl _ rs1 _ | .sra _ rs1 _ | .or _ rs1 _ | .and _ rs1 _ => toIndex rs1
  | .csrrw _ rs1 _ | .csrrs _ rs1 _ | .csrrc _ rs1 _ => toIndex rs1
  | _ => 0

/-- Port `rs2`. -/
def portRs2 : Instr → BitVec 5
  | .beq _ rs2 _ | .bne _ rs2 _ | .blt _ rs2 _ | .bge _ rs2 _ | .bltu _ rs2 _ | .bgeu _ rs2 _ =>
    toIndex rs2
  | .sb _ rs2 _ | .sh _ rs2 _ | .sw _ rs2 _ => toIndex rs2
  | .add _ _ rs2 | .sub _ _ rs2 | .sll _ _ rs2 | .slt _ _ rs2 | .sltu _ _ rs2 | .xor _ _ rs2
  | .srl _ _ rs2 | .sra _ _ rs2 | .or _ _ rs2 | .and _ _ rs2 => toIndex rs2
  | _ => 0

/-- Port `imm`: the imm field; for LOAD `imm16` in the low half and 0 above. -/
def portImm : Instr → BitVec 32
  | .lui _ imm | .auipc _ imm | .jal _ imm => imm
  | .jalr _ _ imm => imm
  | .beq _ _ imm | .bne _ _ imm | .blt _ _ imm | .bge _ _ imm | .bltu _ _ imm | .bgeu _ _ imm => imm
  | .lb _ _ imm16 | .lh _ _ imm16 | .lw _ _ imm16 | .lbu _ _ imm16 | .lhu _ _ imm16 =>
    0#16 ++ imm16
  | .sb _ _ imm | .sh _ _ imm | .sw _ _ imm => imm
  | .addi _ _ imm | .slti _ _ imm | .sltiu _ _ imm | .xori _ _ imm | .ori _ _ imm | .andi _ _ imm =>
    imm
  | _ => 0

/-- Port `shamt`. -/
def portShamt : Instr → BitVec 5
  | .slli _ _ shamt | .srli _ _ shamt | .srai _ _ shamt => shamt
  | _ => 0

/-- Port `zimm`. -/
def portZimm : Instr → BitVec 5
  | .csrrwi _ zimm _ | .csrrsi _ zimm _ | .csrrci _ zimm _ => zimm
  | _ => 0

/-- Port `csr`. -/
def portCsr : Instr → BitVec 12
  | .csrrw _ _ csr | .csrrs _ _ csr | .csrrc _ _ csr => csr
  | .csrrwi _ _ csr | .csrrsi _ _ csr | .csrrci _ _ csr => csr
  | _ => 0

/-- Port `width`: 0 = `W32`. -/
def portWidth : Width → BitVec 1
  | .w32 => 0

/-- The bundle of a result (R35). -/
def bundle : DecodeResult → Ports
  | .ok ins =>
    { ok := 1, width := portWidth ins.width, op := ins.operation.tag, rd := portRd ins.operation,
      rs1 := portRs1 ins.operation, rs2 := portRs2 ins.operation, imm := portImm ins.operation,
      shamt := portShamt ins.operation, zimm := portZimm ins.operation,
      csr := portCsr ins.operation, errKind := 0, errA := 0, errB := 0 }
  | .err e => errPorts e

end Sys2Proof.Machine
end

