-- ==== Sys2Proof/Safety.lean ====
section
/-! DEFINITION. What counts as a sound output, in the terms the statements use: which
(opcode, funct3, funct7) raise (R302, R303, R306), which bundles are legal (R32, R34, R35, R101), and
when the outputs have settled to the inputs (R20, R330, R334). -/

namespace Sys2Proof.Machine

/-- The three SYSTEM marker words, compared whole (R203). -/
def isMarkerWord (w : Word) : Bool := w == 0x30200073 || w == 0x00000073 || w == 0x00100073

/-- The (opcode, funct3) pairs of R302; SYSTEM 000 is here, for words that are no marker. -/
def funct3Raises (c : OpcodeClass) (f3 : BitVec 3) : Bool :=
  match c with
  | .load => f3 == 0b011 || f3 == 0b110 || f3 == 0b111
  | .store => f3 == 0b011 || f3 == 0b100 || f3 == 0b101 || f3 == 0b110 || f3 == 0b111
  | .branch => f3 == 0b010 || f3 == 0b011
  | .jalr => f3 != 0b000
  | .miscMem => f3 != 0b000 && f3 != 0b001
  | .system => f3 == 0b000 || f3 == 0b100
  | .op => false
  | .opImm => false
  | .lui => false
  | .auipc => false
  | .jal => false

/-- The (opcode, funct3, funct7) triples of R303. -/
def funct7Raises (c : OpcodeClass) (f3 : BitVec 3) (f7 : BitVec 7) : Bool :=
  match c with
  | .op =>
    if f3 == 0b000 || f3 == 0b101 then f7 != 0b0000000 && f7 != 0b0100000 else f7 != 0b0000000
  | .opImm =>
    if f3 == 0b001 then f7 != 0b0000000
    else if f3 == 0b101 then f7 != 0b0000000 && f7 != 0b0100000
    else false
  | .load => false
  | .store => false
  | .branch => false
  | .jalr => false
  | .miscMem => false
  | .system => false
  | .lui => false
  | .auipc => false
  | .jal => false

/-- The tag lies in a range of R31's table. -/
def tagIn (t : BitVec 6) (lo hi : Nat) : Bool := lo ≤ t.toNat && t.toNat ≤ hi

/-- The variants with an rd field, by tag (R31); the same for the other fields below. -/
def carriesRd (t : BitVec 6) : Bool := tagIn t 0 3 || tagIn t 10 14 || tagIn t 18 36 || tagIn t 42 47
def carriesRs1 (t : BitVec 6) : Bool := tagIn t 3 36 || tagIn t 42 44
def carriesRs2 (t : BitVec 6) : Bool := tagIn t 4 9 || tagIn t 15 17 || tagIn t 27 36
def carriesShamt (t : BitVec 6) : Bool := tagIn t 24 26
def carriesZimm (t : BitVec 6) : Bool := tagIn t 45 47
def carriesCsr (t : BitVec 6) : Bool := tagIn t 42 47

/-- What the imm port may show for a tag (R35, R101): the range of its format, the zero-extended
LOAD container, or 0. -/
def immPortOk (t : BitVec 6) (v : BitVec 32) : Bool :=
  if tagIn t 0 1 then immUOk v
  else if tagIn t 2 2 then immJOk v
  else if tagIn t 4 9 then immBOk v
  else if tagIn t 10 14 then v.toNat < 65536 && immLOk (v.setWidth 16)
  else if tagIn t 3 3 || tagIn t 15 23 then imm12Ok v
  else v == 0

/-- A bundle of a success: a tag of R31, its fields in range, every other port 0 (R32, R35). -/
def okPortsLegal (p : Ports) : Bool :=
  tagIn p.op 0 47 && (carriesRd p.op || p.rd == 0) && (carriesRs1 p.op || p.rs1 == 0) &&
  (carriesRs2 p.op || p.rs2 == 0) && immPortOk p.op p.imm && (carriesShamt p.op || p.shamt == 0) &&
  (carriesZimm p.op || p.zimm == 0) && (carriesCsr p.op || p.csr == 0) &&
  p.errKind == 0 && p.errA == 0 && p.errB == 0

/-- A bundle of an error: every instruction port 0, and a kind with payloads that kind can carry:
kind 0 an unrecognized opcode, kind 1 a pair of R302, kind 2 a funct3 with a funct7 it does not
admit; never kind 3 (R25, R34, R35). -/
def errPortsLegal (p : Ports) : Bool :=
  p.op == 0 && p.rd == 0 && p.rs1 == 0 && p.rs2 == 0 && p.imm == 0 && p.shamt == 0 && p.zimm == 0 &&
  p.csr == 0 &&
  (if p.errKind == 0 then
    p.errA.toNat < 128 && p.errB == 0 && classOf (p.errA.setWidth 7) == none
  else if p.errKind == 1 then
    p.errA.toNat < 128 && p.errB.toNat < 8 &&
      (match classOf (p.errA.setWidth 7) with
        | some c => funct3Raises c (p.errB.setWidth 3)
        | none => false)
  else if p.errKind == 2 then
    p.errA.toNat < 8 && p.errB.toNat < 128 &&
      (funct7Raises .op (p.errA.setWidth 3) (p.errB.setWidth 7) ||
        funct7Raises .opImm (p.errA.setWidth 3) (p.errB.setWidth 7))
  else false)

/-- The bundles the block may show (R32, R34, R35, R101). -/
def portsLegal (p : Ports) : Bool :=
  p.width == 0 && (if p.ok == 1 then okPortsLegal p else errPortsLegal p)

/-- Every output is the value the inputs give it: the bundle of the decode of the presented word,
the reconstructor's six values of it, and the resolver's answers (R20, R80, R330, R334). -/
def Settled (s : State) : Prop :=
  s.ports = bundle (decode s.word) ∧ s.imms = reconstruct s.word ∧ s.resolver = resolverOut s.inputs

end Sys2Proof.Machine
end

