-- ==== Sys2Proof/Certificates/Slice0/Obligations.lean ====
section
/-! DEFINITION. The statements for the provers. Each docstring names the rule of spec/ it
formalises, or says that it rests on a choice of the model and names the log entry. -/

open Sys2Proof Sys2Proof.Machine

/-! ### The whole machine -/

/-- From every state the next state shows exactly the block's function of its inputs: the bundle of
the decode of the presented word (R35, R87), the six immediates of that word (R80) and the
resolver's answers, with the inputs as they were. The meanings and the step refine R35's table. -/
def Obligations.StepShowsDecodeOfPresentedWord : Prop :=
  ∀ s : State, step s = .next
    { inputs := s.inputs, ports := bundle (decode s.word), imms := reconstruct s.word,
      resolver := resolverOut s.inputs }

/-- Every step from every state, also one whose outputs are illegal or have not settled and also the
first step on a freshly presented word, gives a state in which the bundle is legal (R32, R34, R35, R101)
and every output has settled to the inputs (R20, R330); so a step keeps it. -/
def Obligations.EveryStepKeepsLegalSettledOutputs : Prop :=
  ∀ s s' : State, step s = .next s' → portsLegal s'.ports = true ∧ Settled s'

/-- The invariant holds after reset (R330); which word is presented then is the model's choice (log
entry 1). -/
def Obligations.ResetIsLegalAndSettled : Prop :=
  portsLegal State.reset.ports = true ∧ Settled State.reset ∧ State.reset.word = 0

/-- R85: every word has exactly one result, no step is left without one, and the all-zero and the
all-ones word are unrecognized opcodes. -/
def Obligations.EveryWordHasExactlyOneResult : Prop :=
  (∀ w : Word,
    ((∃ ins, decode w = .ok ins) ∧ ∀ e, decode w ≠ .err e) ∨
    ((∃ e, decode w = .err e) ∧ ∀ ins, decode w ≠ .ok ins)) ∧
  (∀ s : State, ∃ s', step s = .next s') ∧
  decode 0x00000000 = .err (.unrecognizedOpcode 0b0000000) ∧
  decode 0xFFFFFFFF = .err (.unrecognizedOpcode 0b1111111)

/-- R33: a result depends only on the input word; two decodes of the same word give equal results,
whatever the outputs showed before. -/
def Obligations.ResultDependsOnlyOnWord : Prop :=
  ∀ s t s' t' : State, s.word = t.word → step s = .next s' → step t = .next t' →
    s'.ports = t'.ports ∧ s'.imms = t'.imms

/-- Nothing the outputs held before an evaluation reaches the state after it (R20). -/
def Obligations.OldOutputsAreForgotten : Prop :=
  ∀ s t : State, s.inputs = t.inputs → step s = step t

/-- With the inputs unchanged a second evaluation changes nothing (R334: the output is the decode of
the current word). -/
def Obligations.SecondEvaluationChangesNothing : Prop :=
  ∀ s s' : State, step s = .next s' → step s' = .next s'

/-- R332 (the spec's D26): presented word by word, from any state, the machine shows exactly the bundles of the
decodes of the words: the first word decodes like any later one. -/
def Obligations.WordStreamShowsDecodeOfEachWord : Prop :=
  ∀ (ws : List Word) (s : State), runWords ws s = ws.map (fun w => bundle (decode w))

/-- R37: side by side, the result of each instance depends only on its own word: where instance k of
two groups has the same word, it gives the same result, whatever the other instances are and hold. -/
def Obligations.LanesAreIndependent : Prop :=
  ∀ (lanes others : List State) (k : Nat) (s t : State),
    lanes[k]? = some s → others[k]? = some t → s.word = t.word →
    ∃ s' t', (stepLanes lanes)[k]? = some (.next s') ∧ (stepLanes others)[k]? = some (.next t') ∧
      s'.ports = t'.ports ∧ s'.imms = t'.imms

/-- A step runs the decoded instruction, after the sub-blocks that do not depend on the variant have
settled; on a word that does not decode, it drives the error. -/
def Obligations.StepRunsDecodedInstruction : Prop :=
  (∀ (s : State) (i : Instr), decode s.word = .ok ⟨.w32, i⟩ → step s = exec i s.settleSubBlocks) ∧
  (∀ (s : State) (e : DecodeError), decode s.word = .err e → step s = raise e s.settleSubBlocks) ∧
  (∀ s : State, s.settleSubBlocks =
    { s with imms := reconstruct s.word, resolver := resolverOut s.inputs })

/-- What `withFetchWord` presents is the table word, on the front the instance has: on the word input,
or as its four byte lanes, lane k holding bits 8k+7 .. 8k; nothing else changes (log entries 4 and
18). -/
def Obligations.FetchWordIsPresented : Prop :=
  ∀ (s : State) (nbits w : Nat),
    let t : Word := BitVec.ofNat 32 (w % 2 ^ nbits)
    (s.withFetchWord nbits w).word = t ∧
    (∀ v : Word, s.inputs.front = .word v → (s.withFetchWord nbits w).inputs.front = .word t) ∧
    (∀ b0 b1 b2 b3 : Byte, s.inputs.front = .bytes b0 b1 b2 b3 →
      (s.withFetchWord nbits w).inputs.front =
        .bytes (t.extractLsb' 0 8) (t.extractLsb' 8 8) (t.extractLsb' 16 8) (t.extractLsb' 24 8)) ∧
    (s.withFetchWord nbits w).ports = s.ports ∧ (s.withFetchWord nbits w).imms = s.imms ∧
    (s.withFetchWord nbits w).resolver = s.resolver ∧
    (s.withFetchWord nbits w).inputs.resolverRaw = s.inputs.resolverRaw ∧
    (s.withFetchWord nbits w).inputs.resolverReg = s.inputs.resolverReg ∧
    (s.withFetchWord nbits w).inputs.resolverMask = s.inputs.resolverMask

/-! ### Decode and encode -/

/-- Decoding the word of a well-formed variant gives it back, for all 48 variants and every operand
the encoding admits. -/
def Obligations.DecodeOfEncodeGivesVariantBack : Prop :=
  ∀ i : Instr, i.wellFormed = true → decode (encode i) = .ok ⟨.w32, i⟩

/-- Encoding a decoded word gives the word back; for FENCE and FENCE.I its opcode and funct3 bits
(the encoder's choice of zeros elsewhere is log entry 7). -/
def Obligations.EncodeOfDecodeGivesWordBack : Prop :=
  ∀ (w : Word) (i : Instr), decode w = .ok ⟨.w32, i⟩ →
    ((i = .fence ∨ i = .fenceI) → encode i = w &&& 0x0000707F) ∧
    ((i ≠ .fence ∧ i ≠ .fenceI) → encode i = w)

/-- R92: MISC-MEM words ignore word[31:15] and word[11:7] and no other recognized word has an
ignored bit; the marker words are compared whole. That every value is accepted there is the spec's D7
(log entry 10). -/
def Obligations.OnlyMiscMemWordsHaveIgnoredBits : Prop :=
  (∀ w w' : Word, opcodeOf w = 0b0001111 → w &&& 0x0000707F = w' &&& 0x0000707F →
    decode w = decode w') ∧
  (∀ (w w' : Word) (ins : Instruction), opcodeOf w ≠ 0b0001111 → decode w = .ok ins →
    decode w' = .ok ins → w = w') ∧
  (∀ w : Word, decode w = .ok ⟨.w32, .ecall⟩ ↔ w = 0x00000073) ∧
  (∀ w : Word, decode w = .ok ⟨.w32, .ebreak⟩ ↔ w = 0x00100073) ∧
  (∀ w : Word, decode w = .ok ⟨.w32, .mret⟩ ↔ w = 0x30200073)

/-- Every decoded variant is 32 bits wide (R30) and holds field values in the ranges of R101, so
every immediate is already sign-extended to its container (R32). -/
def Obligations.DecodedVariantsAreWellFormed : Prop :=
  ∀ (w : Word) (ins : Instruction), decode w = .ok ins →
    ins.width = .w32 ∧ ins.operation.wellFormed = true

/-- R102, which the spec derives from R87 to R90 (log entry 10): the table has one row per variant, a word decodes exactly when it matches some row, the
rows are disjoint, and the matching row's variant is the decoded one. -/
def Obligations.OpcodeTableDecidesDecode : Prop :=
  opcodeTable.length = 48 ∧
  opcodeTable.map (fun row => row.tag.toNat) = List.range 48 ∧
  (∀ w : Word, (∃ ins, decode w = .ok ins) ↔ ∃ row ∈ opcodeTable, row.hits w) ∧
  (∀ w : Word, ∀ row ∈ opcodeTable, ∀ row' ∈ opcodeTable, row.hits w → row'.hits w → row = row') ∧
  (∀ w : Word, ∀ row ∈ opcodeTable, row.hits w →
    ∃ i : Instr, decode w = .ok ⟨.w32, i⟩ ∧ i.tag = row.tag)

/-- The bundle determines the abstract result: two results with the same ports are the same result
(R35; the tag and kind codes are the spec's own, D8 and D9). -/
def Obligations.BundleDeterminesResult : Prop :=
  ∀ r r' : DecodeResult, bundle r = bundle r' → r = r'

/-- R86, the spec's reading of the source's property (C8): an unrecognized opcode raises UnrecognizedOpcode; a recognized one gives a variant whose
format is the one of its opcode (R72), or a field error of that opcode's handler. -/
def Obligations.OpcodeClassificationIsTotal : Prop :=
  (∀ w : Word, classOf (opcodeOf w) = none →
    decode w = .err (.unrecognizedOpcode (opcodeOf w))) ∧
  (∀ (w : Word) (c : OpcodeClass), classOf (opcodeOf w) = some c →
    (∃ i : Instr, decode w = .ok ⟨.w32, i⟩ ∧ classOfTag i.tag = some c ∧
      formatOfTag i.tag = some (c.format (funct3Of w))) ∨
    (decode w = .err (.invalidFunct3 (opcodeOf w) (funct3Of w)) ∧
      funct3Raises c (funct3Of w) = true) ∨
    (decode w = .err (.invalidFunct7 (funct3Of w) (funct7Of w)) ∧
      funct7Raises c (funct3Of w) (funct7Of w) = true))

/-- R29: no register index is special. Replacing the rd field of a word whose variant has an rd, or
its rs1 or rs2 field, by any other index (x0 too) gives the same variant with that register. -/
def Obligations.NoRegisterIndexIsSpecial : Prop :=
  (∀ (w w' : Word) (i : Instr), decode w = .ok ⟨.w32, i⟩ → carriesRd i.tag = true →
    w &&& 0xFFFFF07F = w' &&& 0xFFFFF07F →
    ∃ i' : Instr, decode w' = .ok ⟨.w32, i'⟩ ∧
      bundle (.ok ⟨.w32, i'⟩) =
        { bundle (.ok ⟨.w32, i⟩) with rd := w'.extractLsb' 7 5 }) ∧
  (∀ (w w' : Word) (i : Instr), decode w = .ok ⟨.w32, i⟩ → carriesRs1 i.tag = true →
    w &&& 0xFFF07FFF = w' &&& 0xFFF07FFF →
    ∃ i' : Instr, decode w' = .ok ⟨.w32, i'⟩ ∧
      bundle (.ok ⟨.w32, i'⟩) =
        { bundle (.ok ⟨.w32, i⟩) with rs1 := w'.extractLsb' 15 5 }) ∧
  (∀ (w w' : Word) (i : Instr), decode w = .ok ⟨.w32, i⟩ → carriesRs2 i.tag = true →
    w &&& 0xFE0FFFFF = w' &&& 0xFE0FFFFF →
    ∃ i' : Instr, decode w' = .ok ⟨.w32, i'⟩ ∧
      bundle (.ok ⟨.w32, i'⟩) =
        { bundle (.ok ⟨.w32, i⟩) with rs2 := w'.extractLsb' 20 5 }) ∧
  decode 0x00000013 = .ok ⟨.w32, .addi ⟨0⟩ ⟨0⟩ 0⟩

/-- R23: the CSR number is word[31:20] and is never judged. Replacing it in a CSR word by any
of the 4096 numbers gives the same variant with that number. -/
def Obligations.CsrNumberIsNeverJudged : Prop :=
  ∀ (w w' : Word) (i : Instr), decode w = .ok ⟨.w32, i⟩ → carriesCsr i.tag = true →
    w &&& 0x000FFFFF = w' &&& 0x000FFFFF →
    portCsr i = w.extractLsb' 20 12 ∧
    ∃ i' : Instr, decode w' = .ok ⟨.w32, i'⟩ ∧
      bundle (.ok ⟨.w32, i'⟩) =
        { bundle (.ok ⟨.w32, i⟩) with csr := w'.extractLsb' 20 12 }

/-! ### Errors -/

/-- R301: UnrecognizedOpcode is raised exactly by words whose opcode is none of the 11, with the
opcode as payload; 117 of the 128 opcode values raise it (MISC-MEM among the 11 is the spec's D1; log
entry 10). -/
def Obligations.UnrecognizedOpcodeExactly : Prop :=
  (∀ (w : Word) (v : BitVec 7), decode w = .err (.unrecognizedOpcode v) ↔
    (v = w.extractLsb' 0 7 ∧
      v ∉ [0b0110111#7, 0b0010111#7, 0b1101111#7, 0b1100111#7, 0b1100011#7, 0b0000011#7,
           0b0100011#7, 0b0010011#7, 0b0110011#7, 0b0001111#7, 0b1110011#7])) ∧
  ((List.range 128).filter (fun n => classOf (BitVec.ofNat 7 n) == none)).length = 117 ∧
  decode 0x00000000 = .err (.unrecognizedOpcode 0b0000000) ∧
  decode 0xFFFFFFFF = .err (.unrecognizedOpcode 0b1111111) ∧
  decode 0x0000007F = .err (.unrecognizedOpcode 0b1111111)

/-- R302: InvalidFunct3 is raised exactly by the (opcode, funct3) pairs of the rule's table, SYSTEM
000 except for the three marker words, with opcode and funct3 as payload. Which funct3 values are
undefined is the spec's reading of RV32I (D2, D4, D5, D6; log entry 10). -/
def Obligations.InvalidFunct3Exactly : Prop :=
  ∀ (w : Word) (o : BitVec 7) (v : BitVec 3), decode w = .err (.invalidFunct3 o v) ↔
    (o = w.extractLsb' 0 7 ∧ v = w.extractLsb' 12 3 ∧
      ((o = 0b0000011 ∧ v ∈ [0b011#3, 0b110#3, 0b111#3]) ∨
       (o = 0b0100011 ∧ v ∈ [0b011#3, 0b100#3, 0b101#3, 0b110#3, 0b111#3]) ∨
       (o = 0b1100011 ∧ v ∈ [0b010#3, 0b011#3]) ∨
       (o = 0b1100111 ∧ v ∈ [0b001#3, 0b010#3, 0b011#3, 0b100#3, 0b101#3, 0b110#3, 0b111#3]) ∨
       (o = 0b0001111 ∧ v ∈ [0b010#3, 0b011#3, 0b100#3, 0b101#3, 0b110#3, 0b111#3]) ∨
       (o = 0b1110011 ∧ (v = 0b100 ∨
         (v = 0b000 ∧ w ≠ 0x00000073 ∧ w ≠ 0x00100073 ∧ w ≠ 0x30200073)))))

/-- R303: InvalidFunct7 is raised exactly by the OP words and OP-IMM shift words whose funct7 is not
admitted, with funct3 and funct7 as payload and without the opcode. The checks beyond the paired
funct3 values are the spec's D3 (log entry 10). -/
def Obligations.InvalidFunct7Exactly : Prop :=
  (∀ (w : Word) (f : BitVec 3) (v : BitVec 7), decode w = .err (.invalidFunct7 f v) ↔
    (f = w.extractLsb' 12 3 ∧ v = w.extractLsb' 25 7 ∧
      ((w.extractLsb' 0 7 = 0b0110011#7 ∧ (f = 0b000 ∨ f = 0b101) ∧
          v ≠ 0b0000000 ∧ v ≠ 0b0100000) ∨
       (w.extractLsb' 0 7 = 0b0110011#7 ∧ f ≠ 0b000 ∧ f ≠ 0b101 ∧ v ≠ 0b0000000) ∨
       (w.extractLsb' 0 7 = 0b0010011#7 ∧ f = 0b001 ∧ v ≠ 0b0000000) ∨
       (w.extractLsb' 0 7 = 0b0010011#7 ∧ f = 0b101 ∧ v ≠ 0b0000000 ∧ v ≠ 0b0100000)))) ∧
  decode 0x023150B3 = .err (.invalidFunct7 0b101 0b0000001) ∧
  decode 0x02015093 = .err (.invalidFunct7 0b101 0b0000001)

/-- R304: a 5-bit field always resolves, so decode never raises InvalidRegister; only a direct
call of `resolve` with a raw value of 32 to 255 does, with that value as payload. -/
def Obligations.InvalidRegisterOnlyFromDirectResolve : Prop :=
  (∀ f : BitVec 5, resolve (f.setWidth 8) = .ok ⟨f⟩) ∧
  (∀ (w : Word) (v : BitVec 8), decode w ≠ .err (.invalidRegister v)) ∧
  (∀ raw : BitVec 8, 32 ≤ raw.toNat → resolve raw = .err (.invalidRegister raw))

/-- R82, R306: one error at most, in this order: the opcode, then for SYSTEM the whole-word markers,
then funct3, then funct7; a word that fails none of them decodes. The order is the spec's D20, and the
words that fail each check are the sets of R302 and R303, its D1 to D6 (log entry 10). -/
def Obligations.FirstFailingCheckDecides : Prop :=
  (∀ w : Word, classOf (opcodeOf w) = none → decode w = .err (.unrecognizedOpcode (opcodeOf w))) ∧
  (∀ (w : Word) (c : OpcodeClass), classOf (opcodeOf w) = some c →
    (isMarkerWord w = true → ∃ i : Instr, decode w = .ok ⟨.w32, i⟩ ∧
      (i = .ecall ∨ i = .ebreak ∨ i = .mret)) ∧
    (isMarkerWord w = false → funct3Raises c (funct3Of w) = true →
      decode w = .err (.invalidFunct3 (opcodeOf w) (funct3Of w))) ∧
    (isMarkerWord w = false → funct3Raises c (funct3Of w) = false →
      funct7Raises c (funct3Of w) (funct7Of w) = true →
      decode w = .err (.invalidFunct7 (funct3Of w) (funct7Of w))) ∧
    (isMarkerWord w = false → funct3Raises c (funct3Of w) = false →
      funct7Raises c (funct3Of w) (funct7Of w) = false → ∃ ins, decode w = .ok ins)) ∧
  decode 0x00003023 = .err (.invalidFunct3 0b0100011 0b011)

/-- R34, R35: raising an error completes and drives kind and zero-extended payloads, with every
instruction port 0; nothing else of the state changes. -/
def Obligations.RaiseDrivesErrorPorts : Prop :=
  (∀ (v : BitVec 7) (s : State), raise (.unrecognizedOpcode v) s = .next { s with ports :=
    { ok := 0, width := 0, op := 0, rd := 0, rs1 := 0, rs2 := 0, imm := 0, shamt := 0, zimm := 0,
      csr := 0, errKind := 0, errA := v.setWidth 8, errB := 0 } }) ∧
  (∀ (o : BitVec 7) (v : BitVec 3) (s : State),
    raise (.invalidFunct3 o v) s = .next { s with ports :=
    { ok := 0, width := 0, op := 0, rd := 0, rs1 := 0, rs2 := 0, imm := 0, shamt := 0, zimm := 0,
      csr := 0, errKind := 1, errA := o.setWidth 8, errB := v.setWidth 8 } }) ∧
  (∀ (f : BitVec 3) (v : BitVec 7) (s : State),
    raise (.invalidFunct7 f v) s = .next { s with ports :=
    { ok := 0, width := 0, op := 0, rd := 0, rs1 := 0, rs2 := 0, imm := 0, shamt := 0, zimm := 0,
      csr := 0, errKind := 2, errA := f.setWidth 8, errB := v.setWidth 8 } }) ∧
  (∀ (v : BitVec 8) (s : State), raise (.invalidRegister v) s = .next { s with ports :=
    { ok := 0, width := 0, op := 0, rd := 0, rs1 := 0, rs2 := 0, imm := 0, shamt := 0, zimm := 0,
      csr := 0, errKind := 3, errA := v, errB := 0 } })

/-- R97, which the spec derives from its opcode and funct maps (log entry 10): the words of excluded
extensions raise: M-extension OP words, the RV64 loads, store and shifts, and the opcodes of F, D, A, V
and RV64. -/
def Obligations.ExcludedExtensionWordsRaise : Prop :=
  (∀ w : Word, opcodeOf w = 0b0110011 → funct7Of w = 0b0000001 →
    decode w = .err (.invalidFunct7 (funct3Of w) 0b0000001)) ∧
  (∀ w : Word, opcodeOf w = 0b0000011 → (funct3Of w = 0b011 ∨ funct3Of w = 0b110) →
    decode w = .err (.invalidFunct3 0b0000011 (funct3Of w))) ∧
  (∀ w : Word, opcodeOf w = 0b0100011 → funct3Of w = 0b011 →
    decode w = .err (.invalidFunct3 0b0100011 0b011)) ∧
  (∀ w : Word, opcodeOf w = 0b0010011 → (funct3Of w = 0b001 ∨ funct3Of w = 0b101) →
    (funct7Of w = 0b0000001 ∨ funct7Of w = 0b0100001) →
    decode w = .err (.invalidFunct7 (funct3Of w) (funct7Of w))) ∧
  (∀ w : Word, opcodeOf w ∈ [0x07#7, 0x27#7, 0x43#7, 0x47#7, 0x4B#7, 0x4F#7, 0x53#7, 0x2F#7, 0x57#7,
      0x1B#7, 0x3B#7] → decode w = .err (.unrecognizedOpcode (opcodeOf w)))

/-- R96: a SYSTEM word with funct3 000 that is none of the three markers raises
InvalidFunct3(0b1110011, 0b000): SRET, WFI, SFENCE.VMA and markers with any other bit changed (the
spec's D6; log entry 10). -/
def Obligations.OtherSystemWordsRaise : Prop :=
  (∀ w : Word, opcodeOf w = 0b1110011 → funct3Of w = 0b000 →
    w ≠ 0x00000073 → w ≠ 0x00100073 → w ≠ 0x30200073 →
    decode w = .err (.invalidFunct3 0b1110011 0b000)) ∧
  decode 0x10200073 = .err (.invalidFunct3 0b1110011 0b000) ∧
  decode 0x10500073 = .err (.invalidFunct3 0b1110011 0b000) ∧
  decode 0x12000073 = .err (.invalidFunct3 0b1110011 0b000)

/-- R100, which the spec derives from R72 and R81, and R94: every word with word[1:0] other than 11 and every long-instruction prefix and custom
opcode raises UnrecognizedOpcode; the first are 96 of the 128 opcode values. -/
def Obligations.CompressedLongAndCustomWordsRaise : Prop :=
  (∀ w : Word, w.extractLsb' 0 2 ≠ 0b11#2 → decode w = .err (.unrecognizedOpcode (opcodeOf w))) ∧
  ((List.range 128).filter (fun n => n % 4 != 3)).length = 96 ∧
  (∀ w : Word, opcodeOf w ∈ [0x1F#7, 0x3F#7, 0x5F#7, 0x7F#7] →
    decode w = .err (.unrecognizedOpcode (opcodeOf w))) ∧
  (∀ w : Word, opcodeOf w ∈ [0x0B#7, 0x2B#7, 0x5B#7, 0x7B#7] →
    decode w = .err (.unrecognizedOpcode (opcodeOf w)))

/-! ### The register index resolver -/

/-- R24 (its 8-bit input is the spec's D12): a raw value up to 31 resolves to the register of its low five bits, any other raises
InvalidRegister with the raw value. -/
def Obligations.ResolveAcceptsExactlyUpTo31 : Prop :=
  (∀ raw : BitVec 8, raw.toNat ≤ 31 → resolve raw = .ok ⟨raw.extractLsb' 0 5⟩) ∧
  (∀ raw : BitVec 8, 31 < raw.toNat → resolve raw = .err (.invalidRegister raw))

/-- R26: `to_index` gives the index; it and `resolve` are inverse to each other on 0 to 31 and on all
registers. -/
def Obligations.ToIndexInvertsResolve : Prop :=
  (∀ i : BitVec 5, toIndex ⟨i⟩ = i) ∧
  (∀ raw : BitVec 8, raw.toNat ≤ 31 →
    ∃ r, resolve raw = .ok r ∧ (toIndex r).toNat = raw.toNat) ∧
  (∀ r : Register, resolve ((toIndex r).setWidth 8) = .ok r)

/-- R27: `list_from_bitmask` holds exactly the registers whose bit is set, in ascending order, as
many as there are set bits; mask 0 gives the empty sequence. -/
def Obligations.ListFromBitmaskListsSetBitsInOrder : Prop :=
  (∀ (mask : BitVec 32) (r : Register),
    r ∈ listFromBitmask mask ↔ mask.getLsbD r.index.toNat = true) ∧
  (∀ mask : BitVec 32,
    (listFromBitmask mask).Pairwise (fun a b => a.index.toNat < b.index.toNat)) ∧
  (∀ mask : BitVec 32, (listFromBitmask mask).length =
    ((List.range 32).filter (fun k => mask.getLsbD k)).length) ∧
  listFromBitmask 0 = []

/-! ### The immediate field reconstructor -/

/-- R74, R76: the I- and S-immediates bit by bit, sign-extended from word[31], and their range. -/
def Obligations.IAndSImmediateBits : Prop :=
  (∀ (w : Word) (k : Nat), k < 11 → (immI w).getLsbD k = w.getLsbD (20 + k)) ∧
  (∀ (w : Word) (k : Nat), 11 ≤ k → k < 32 → (immI w).getLsbD k = w.getLsbD 31) ∧
  (∀ (w : Word) (k : Nat), k < 5 → (immS w).getLsbD k = w.getLsbD (7 + k)) ∧
  (∀ (w : Word) (k : Nat), 5 ≤ k → k < 11 → (immS w).getLsbD k = w.getLsbD (20 + k)) ∧
  (∀ (w : Word) (k : Nat), 11 ≤ k → k < 32 → (immS w).getLsbD k = w.getLsbD 31) ∧
  (∀ w : Word, -2048 ≤ (immI w).toInt ∧ (immI w).toInt ≤ 2047) ∧
  (∀ w : Word, -2048 ≤ (immS w).toInt ∧ (immS w).toInt ≤ 2047)

/-- R75: the LOAD immediate is the low half of the I-immediate, equal to the field sign-extended to
16 bits; widening it by sign extension gives the I-immediate back. -/
def Obligations.LoadImmediateIsLowHalfOfI : Prop :=
  (∀ w : Word, immL w = (immI w).extractLsb' 0 16) ∧
  (∀ w : Word, immL w = (w.extractLsb' 20 12).signExtend 16) ∧
  (∀ w : Word, (immL w).signExtend 32 = immI w) ∧
  (∀ w : Word, 0 ≤ (immI w).toInt →
    ((immL w).toNat : Int) = (immI w).toInt ∧ (immL w).toNat ≤ 0x07FF) ∧
  (∀ w : Word, (immI w).toInt < 0 → 0xF800 ≤ (immL w).toNat)

/-- R77: the B-immediate: bit 31 to position 12 and above, bit 7 to 11, bits 30:25 to 10:5, bits
11:8 to 4:1, bit 0 zero; even and in -4096 .. 4094; -4096 when only bit 31 is set. -/
def Obligations.BranchImmediateBits : Prop :=
  (∀ w : Word, (immB w).getLsbD 0 = false) ∧
  (∀ (w : Word) (k : Nat), 1 ≤ k → k < 5 → (immB w).getLsbD k = w.getLsbD (7 + k)) ∧
  (∀ (w : Word) (k : Nat), 5 ≤ k → k < 11 → (immB w).getLsbD k = w.getLsbD (20 + k)) ∧
  (∀ w : Word, (immB w).getLsbD 11 = w.getLsbD 7) ∧
  (∀ (w : Word) (k : Nat), 12 ≤ k → k < 32 → (immB w).getLsbD k = w.getLsbD 31) ∧
  (∀ w : Word, -4096 ≤ (immB w).toInt ∧ (immB w).toInt ≤ 4094 ∧ (immB w).toInt % 2 = 0) ∧
  (immB 0x80000000).toInt = -4096

/-- R78: the U-immediate: bits 31:12 in place, the low 12 zero, no extension; read as two's
complement it lies between -2^31 and 2^31 - 4096 in steps of 4096. -/
def Obligations.UpperImmediateBits : Prop :=
  (∀ (w : Word) (k : Nat), k < 12 → (immU w).getLsbD k = false) ∧
  (∀ (w : Word) (k : Nat), 12 ≤ k → k < 32 → (immU w).getLsbD k = w.getLsbD k) ∧
  (∀ w : Word, -2147483648 ≤ (immU w).toInt ∧ (immU w).toInt ≤ 2147479552 ∧
    (immU w).toInt % 4096 = 0)

/-- R79: the J-immediate: bit 31 to position 20 and above, bits 19:12 in place, bit 20 to 11, bits
30:21 to 10:1, bit 0 zero; even and in -1048576 .. 1048574; -(1<<20) when only bit 31 is set. -/
def Obligations.JumpImmediateBits : Prop :=
  (∀ w : Word, (immJ w).getLsbD 0 = false) ∧
  (∀ (w : Word) (k : Nat), 1 ≤ k → k < 11 → (immJ w).getLsbD k = w.getLsbD (20 + k)) ∧
  (∀ w : Word, (immJ w).getLsbD 11 = w.getLsbD 20) ∧
  (∀ (w : Word) (k : Nat), 12 ≤ k → k < 20 → (immJ w).getLsbD k = w.getLsbD k) ∧
  (∀ (w : Word) (k : Nat), 20 ≤ k → k < 32 → (immJ w).getLsbD k = w.getLsbD 31) ∧
  (∀ w : Word, -1048576 ≤ (immJ w).toInt ∧ (immJ w).toInt ≤ 1048574 ∧ (immJ w).toInt % 2 = 0) ∧
  (immJ 0x80000000).toInt = -1048576

/-! ### The boundary wrapper -/

/-- R51: the wrapper puts byte k at bits 8k+7 .. 8k of the word, byte0 least significant. -/
def Obligations.WrapperAssemblesLittleEndian : Prop :=
  (∀ (b0 b1 b2 b3 : Byte) (k : Nat), k < 8 →
    (assemble b0 b1 b2 b3).getLsbD k = b0.getLsbD k ∧
    (assemble b0 b1 b2 b3).getLsbD (8 + k) = b1.getLsbD k ∧
    (assemble b0 b1 b2 b3).getLsbD (16 + k) = b2.getLsbD k ∧
    (assemble b0 b1 b2 b3).getLsbD (24 + k) = b3.getLsbD k) ∧
  (∀ (s : State) (b0 b1 b2 b3 : Byte), s.inputs.front = .bytes b0 b1 b2 b3 →
    s.word = assemble b0 b1 b2 b3) ∧
  assemble 0x13 0x00 0x00 0x00 = 0x00000013 ∧ assemble 0x73 0x00 0x10 0x00 = 0x00100073

/-- R52: behind the wrapper or without it, the same word gives the same outputs. -/
def Obligations.WrapperDoesNotChangeDecode : Prop :=
  ∀ (s t s' t' : State) (b0 b1 b2 b3 : Byte),
    s.inputs.front = .bytes b0 b1 b2 b3 → t.inputs.front = .word (assemble b0 b1 b2 b3) →
    step s = .next s' → step t = .next t' → s'.ports = t'.ports ∧ s'.imms = t'.imms

/-- R36: exactly four bytes make a word and any other number is the caller's contract violation; a
stream of whole words gives one result per word, in order (that a short last group rejects the
stream is log entry 14). -/
def Obligations.ByteStreamDecodesWordByWord : Prop :=
  (∀ bs : List Byte, bs.length ≠ 4 → wrap bs = .contractViolation) ∧
  (∀ b0 b1 b2 b3 : Byte, wrap [b0, b1, b2, b3] = .word (assemble b0 b1 b2 b3)) ∧
  (∀ ws : List Word,
    decodeStream (ws.flatMap (fun w => [laneOf w 0, laneOf w 1, laneOf w 2, laneOf w 3])) =
      .results (ws.map decode)) ∧
  (∀ bs : List Byte, bs.length % 4 ≠ 0 → decodeStream bs = .contractViolation)

/-! ### What each family's words decode to -/

/-- R120, R121, R125: every LUI, AUIPC and JAL word decodes, with word[31:12] over twelve zeros, or the
J-immediate as R125 writes it. -/
def Obligations.UpperImmediateAndJalWordsDecode : Prop :=
  (∀ w : Word, w.extractLsb' 0 7 = 0b0110111#7 →
    decode w = .ok ⟨.w32, .lui ⟨w.extractLsb' 7 5⟩ (w.extractLsb' 12 20 ++ 0#12)⟩) ∧
  (∀ w : Word, w.extractLsb' 0 7 = 0b0010111#7 →
    decode w = .ok ⟨.w32, .auipc ⟨w.extractLsb' 7 5⟩ (w.extractLsb' 12 20 ++ 0#12)⟩) ∧
  (∀ w : Word, w.extractLsb' 0 7 = 0b1101111#7 →
    decode w = .ok ⟨.w32, .jal ⟨w.extractLsb' 7 5⟩
      ((w.extractLsb' 31 1 ++ w.extractLsb' 12 8 ++ w.extractLsb' 20 1 ++ w.extractLsb' 21 10
        ++ 0#1).signExtend 32)⟩) ∧
  decode 0x123452B7 = .ok ⟨.w32, .lui ⟨5⟩ 0x12345000⟩ ∧
  decode 0xFFFFF517 = .ok ⟨.w32, .auipc ⟨10⟩ 0xFFFFF000⟩ ∧
  decode 0x00000017 = .ok ⟨.w32, .auipc ⟨0⟩ 0⟩ ∧
  decode 0x001000EF = .ok ⟨.w32, .jal ⟨1⟩ 0x00000800⟩ ∧
  decode 0x8000006F = .ok ⟨.w32, .jal ⟨0⟩ 0xFFF00000⟩ ∧
  decode 0x7FFFF06F = .ok ⟨.w32, .jal ⟨0⟩ 0x000FFFFE⟩

/-- R126: a JALR word decodes exactly with funct3 000 (the check is the spec's D4; log entry 10). -/
def Obligations.JalrWordsDecode : Prop :=
  (∀ w : Word, w.extractLsb' 0 7 = 0b1100111#7 → w.extractLsb' 12 3 = 0b000#3 →
    decode w = .ok ⟨.w32, .jalr ⟨w.extractLsb' 7 5⟩ ⟨w.extractLsb' 15 5⟩
      ((w.extractLsb' 20 12).signExtend 32)⟩) ∧
  (∀ w : Word, w.extractLsb' 0 7 = 0b1100111#7 → w.extractLsb' 12 3 ≠ 0b000#3 →
    decode w = .err (.invalidFunct3 0b1100111 (w.extractLsb' 12 3))) ∧
  decode 0xFFF280E7 = .ok ⟨.w32, .jalr ⟨1⟩ ⟨5⟩ 0xFFFFFFFF⟩ ∧
  decode 0x00008067 = .ok ⟨.w32, .jalr ⟨0⟩ ⟨1⟩ 0⟩ ∧
  decode 0x00009067 = .err (.invalidFunct3 0b1100111 0b001)

/-- The B-immediate as R130 writes it. -/
def branchOffset (w : Word) : BitVec 32 :=
  (w.extractLsb' 31 1 ++ w.extractLsb' 7 1 ++ w.extractLsb' 25 6 ++ w.extractLsb' 8 4
    ++ 0#1).signExtend 32

/-- R130 to R136: the BRANCH handler by funct3, 010 and 011 raising InvalidFunct3 (which mnemonic has
which funct3 is the spec's reading of RV32I, D2, here and in the handlers below; log entry 10). -/
def Obligations.BranchWordsDecode : Prop :=
  (∀ w : Word, w.extractLsb' 0 7 = 0b1100011#7 →
    (w.extractLsb' 12 3 = 0b000#3 → decode w =
      .ok ⟨.w32, .beq ⟨w.extractLsb' 15 5⟩ ⟨w.extractLsb' 20 5⟩ (branchOffset w)⟩) ∧
    (w.extractLsb' 12 3 = 0b001#3 → decode w =
      .ok ⟨.w32, .bne ⟨w.extractLsb' 15 5⟩ ⟨w.extractLsb' 20 5⟩ (branchOffset w)⟩) ∧
    (w.extractLsb' 12 3 = 0b100#3 → decode w =
      .ok ⟨.w32, .blt ⟨w.extractLsb' 15 5⟩ ⟨w.extractLsb' 20 5⟩ (branchOffset w)⟩) ∧
    (w.extractLsb' 12 3 = 0b101#3 → decode w =
      .ok ⟨.w32, .bge ⟨w.extractLsb' 15 5⟩ ⟨w.extractLsb' 20 5⟩ (branchOffset w)⟩) ∧
    (w.extractLsb' 12 3 = 0b110#3 → decode w =
      .ok ⟨.w32, .bltu ⟨w.extractLsb' 15 5⟩ ⟨w.extractLsb' 20 5⟩ (branchOffset w)⟩) ∧
    (w.extractLsb' 12 3 = 0b111#3 → decode w =
      .ok ⟨.w32, .bgeu ⟨w.extractLsb' 15 5⟩ ⟨w.extractLsb' 20 5⟩ (branchOffset w)⟩) ∧
    (w.extractLsb' 12 3 = 0b010#3 → decode w = .err (.invalidFunct3 0b1100011 0b010)) ∧
    (w.extractLsb' 12 3 = 0b011#3 → decode w = .err (.invalidFunct3 0b1100011 0b011))) ∧
  decode 0x00208463 = .ok ⟨.w32, .beq ⟨1⟩ ⟨2⟩ 0x00000008⟩ ∧
  decode 0x80000063 = .ok ⟨.w32, .beq ⟨0⟩ ⟨0⟩ 0xFFFFF000⟩ ∧
  decode 0xFE419EE3 = .ok ⟨.w32, .bne ⟨3⟩ ⟨4⟩ 0xFFFFFFFC⟩ ∧
  decode 0x7E62CFE3 = .ok ⟨.w32, .blt ⟨5⟩ ⟨6⟩ 0x00000FFE⟩ ∧
  decode 0x8083D063 = .ok ⟨.w32, .bge ⟨7⟩ ⟨8⟩ 0xFFFFF000⟩ ∧
  decode 0x00A4E0E3 = .ok ⟨.w32, .bltu ⟨9⟩ ⟨10⟩ 0x00000800⟩ ∧
  decode 0xFEC5FFE3 = .ok ⟨.w32, .bgeu ⟨11⟩ ⟨12⟩ 0xFFFFFFFE⟩

/-- R140 to R145: the LOAD handler by funct3, the offset in its 16-bit container. -/
def Obligations.LoadWordsDecode : Prop :=
  (∀ w : Word, w.extractLsb' 0 7 = 0b0000011#7 →
    (w.extractLsb' 12 3 = 0b000#3 → decode w = .ok ⟨.w32, .lb ⟨w.extractLsb' 7 5⟩
      ⟨w.extractLsb' 15 5⟩ (((w.extractLsb' 20 12).signExtend 32).extractLsb' 0 16)⟩) ∧
    (w.extractLsb' 12 3 = 0b001#3 → decode w = .ok ⟨.w32, .lh ⟨w.extractLsb' 7 5⟩
      ⟨w.extractLsb' 15 5⟩ (((w.extractLsb' 20 12).signExtend 32).extractLsb' 0 16)⟩) ∧
    (w.extractLsb' 12 3 = 0b010#3 → decode w = .ok ⟨.w32, .lw ⟨w.extractLsb' 7 5⟩
      ⟨w.extractLsb' 15 5⟩ (((w.extractLsb' 20 12).signExtend 32).extractLsb' 0 16)⟩) ∧
    (w.extractLsb' 12 3 = 0b100#3 → decode w = .ok ⟨.w32, .lbu ⟨w.extractLsb' 7 5⟩
      ⟨w.extractLsb' 15 5⟩ (((w.extractLsb' 20 12).signExtend 32).extractLsb' 0 16)⟩) ∧
    (w.extractLsb' 12 3 = 0b101#3 → decode w = .ok ⟨.w32, .lhu ⟨w.extractLsb' 7 5⟩
      ⟨w.extractLsb' 15 5⟩ (((w.extractLsb' 20 12).signExtend 32).extractLsb' 0 16)⟩) ∧
    (w.extractLsb' 12 3 ∈ [0b011#3, 0b110#3, 0b111#3] →
      decode w = .err (.invalidFunct3 0b0000011 (w.extractLsb' 12 3)))) ∧
  decode 0xFFF30283 = .ok ⟨.w32, .lb ⟨5⟩ ⟨6⟩ 0xFFFF⟩ ∧
  decode 0x7FF41383 = .ok ⟨.w32, .lh ⟨7⟩ ⟨8⟩ 0x07FF⟩ ∧
  decode 0x80052483 = .ok ⟨.w32, .lw ⟨9⟩ ⟨10⟩ 0xF800⟩ ∧
  decode 0x00064583 = .ok ⟨.w32, .lbu ⟨11⟩ ⟨12⟩ 0x0000⟩ ∧
  decode 0x06475683 = .ok ⟨.w32, .lhu ⟨13⟩ ⟨14⟩ 0x0064⟩

/-- R150 to R153: the STORE handler by funct3; rs1 is the base, rs2 the data register. -/
def Obligations.StoreWordsDecode : Prop :=
  (∀ w : Word, w.extractLsb' 0 7 = 0b0100011#7 →
    (w.extractLsb' 12 3 = 0b000#3 → decode w = .ok ⟨.w32, .sb ⟨w.extractLsb' 15 5⟩
      ⟨w.extractLsb' 20 5⟩ ((w.extractLsb' 25 7 ++ w.extractLsb' 7 5).signExtend 32)⟩) ∧
    (w.extractLsb' 12 3 = 0b001#3 → decode w = .ok ⟨.w32, .sh ⟨w.extractLsb' 15 5⟩
      ⟨w.extractLsb' 20 5⟩ ((w.extractLsb' 25 7 ++ w.extractLsb' 7 5).signExtend 32)⟩) ∧
    (w.extractLsb' 12 3 = 0b010#3 → decode w = .ok ⟨.w32, .sw ⟨w.extractLsb' 15 5⟩
      ⟨w.extractLsb' 20 5⟩ ((w.extractLsb' 25 7 ++ w.extractLsb' 7 5).signExtend 32)⟩) ∧
    (w.extractLsb' 12 3 ∈ [0b011#3, 0b100#3, 0b101#3, 0b110#3, 0b111#3] →
      decode w = .err (.invalidFunct3 0b0100011 (w.extractLsb' 12 3)))) ∧
  decode 0xFE530FA3 = .ok ⟨.w32, .sb ⟨6⟩ ⟨5⟩ 0xFFFFFFFF⟩ ∧
  decode 0x7E741FA3 = .ok ⟨.w32, .sh ⟨8⟩ ⟨7⟩ 0x000007FF⟩ ∧
  decode 0x80952023 = .ok ⟨.w32, .sw ⟨10⟩ ⟨9⟩ 0xFFFFF800⟩ ∧
  decode 0x00003023 = .err (.invalidFunct3 0b0100011 0b011)

/-- R160 to R169: the OP-IMM handler by funct3, the shifts with all seven bits of funct7. -/
def Obligations.OpImmWordsDecode : Prop :=
  (∀ w : Word, w.extractLsb' 0 7 = 0b0010011#7 →
    let rd : Register := ⟨w.extractLsb' 7 5⟩
    let rs1 : Register := ⟨w.extractLsb' 15 5⟩
    let imm : BitVec 32 := (w.extractLsb' 20 12).signExtend 32
    (w.extractLsb' 12 3 = 0b000#3 → decode w = .ok ⟨.w32, .addi rd rs1 imm⟩) ∧
    (w.extractLsb' 12 3 = 0b010#3 → decode w = .ok ⟨.w32, .slti rd rs1 imm⟩) ∧
    (w.extractLsb' 12 3 = 0b011#3 → decode w = .ok ⟨.w32, .sltiu rd rs1 imm⟩) ∧
    (w.extractLsb' 12 3 = 0b100#3 → decode w = .ok ⟨.w32, .xori rd rs1 imm⟩) ∧
    (w.extractLsb' 12 3 = 0b110#3 → decode w = .ok ⟨.w32, .ori rd rs1 imm⟩) ∧
    (w.extractLsb' 12 3 = 0b111#3 → decode w = .ok ⟨.w32, .andi rd rs1 imm⟩)) ∧
  (∀ w : Word, w.extractLsb' 0 7 = 0b0010011#7 →
    let rd : Register := ⟨w.extractLsb' 7 5⟩
    let rs1 : Register := ⟨w.extractLsb' 15 5⟩
    let f7 : BitVec 7 := w.extractLsb' 25 7
    (w.extractLsb' 12 3 = 0b001#3 → f7 = 0b0000000 →
      decode w = .ok ⟨.w32, .slli rd rs1 (w.extractLsb' 20 5)⟩) ∧
    (w.extractLsb' 12 3 = 0b001#3 → f7 ≠ 0b0000000 →
      decode w = .err (.invalidFunct7 0b001 f7)) ∧
    (w.extractLsb' 12 3 = 0b101#3 → f7 = 0b0000000 →
      decode w = .ok ⟨.w32, .srli rd rs1 (w.extractLsb' 20 5)⟩) ∧
    (w.extractLsb' 12 3 = 0b101#3 → f7 = 0b0100000 →
      decode w = .ok ⟨.w32, .srai rd rs1 (w.extractLsb' 20 5)⟩) ∧
    (w.extractLsb' 12 3 = 0b101#3 → f7 ≠ 0b0000000 → f7 ≠ 0b0100000 →
      decode w = .err (.invalidFunct7 0b101 f7))) ∧
  decode 0x00000013 = .ok ⟨.w32, .addi ⟨0⟩ ⟨0⟩ 0⟩ ∧
  decode 0xFFF00093 = .ok ⟨.w32, .addi ⟨1⟩ ⟨0⟩ 0xFFFFFFFF⟩ ∧
  decode 0x0051A113 = .ok ⟨.w32, .slti ⟨2⟩ ⟨3⟩ 5⟩ ∧
  decode 0xFFF2B213 = .ok ⟨.w32, .sltiu ⟨4⟩ ⟨5⟩ 0xFFFFFFFF⟩ ∧
  decode 0xFFF3C313 = .ok ⟨.w32, .xori ⟨6⟩ ⟨7⟩ 0xFFFFFFFF⟩ ∧
  decode 0x7FF4E413 = .ok ⟨.w32, .ori ⟨8⟩ ⟨9⟩ 0x000007FF⟩ ∧
  decode 0x0FF5F513 = .ok ⟨.w32, .andi ⟨10⟩ ⟨11⟩ 0x000000FF⟩ ∧
  decode 0x01F11093 = .ok ⟨.w32, .slli ⟨1⟩ ⟨2⟩ 31⟩ ∧
  decode 0x02011093 = .err (.invalidFunct7 0b001 0b0000001) ∧
  decode 0x00025193 = .ok ⟨.w32, .srli ⟨3⟩ ⟨4⟩ 0⟩ ∧
  decode 0x02015093 = .err (.invalidFunct7 0b101 0b0000001) ∧
  decode 0x41F35293 = .ok ⟨.w32, .srai ⟨5⟩ ⟨6⟩ 31⟩

/-- R180 to R190: the OP handler by funct3 and all seven bits of funct7. -/
def Obligations.OpWordsDecode : Prop :=
  (∀ w : Word, w.extractLsb' 0 7 = 0b0110011#7 →
    let rd : Register := ⟨w.extractLsb' 7 5⟩
    let rs1 : Register := ⟨w.extractLsb' 15 5⟩
    let rs2 : Register := ⟨w.extractLsb' 20 5⟩
    let f3 : BitVec 3 := w.extractLsb' 12 3
    let f7 : BitVec 7 := w.extractLsb' 25 7
    (f3 = 0b000 → f7 = 0b0000000 → decode w = .ok ⟨.w32, .add rd rs1 rs2⟩) ∧
    (f3 = 0b000 → f7 = 0b0100000 → decode w = .ok ⟨.w32, .sub rd rs1 rs2⟩) ∧
    (f3 = 0b001 → f7 = 0b0000000 → decode w = .ok ⟨.w32, .sll rd rs1 rs2⟩) ∧
    (f3 = 0b010 → f7 = 0b0000000 → decode w = .ok ⟨.w32, .slt rd rs1 rs2⟩) ∧
    (f3 = 0b011 → f7 = 0b0000000 → decode w = .ok ⟨.w32, .sltu rd rs1 rs2⟩) ∧
    (f3 = 0b100 → f7 = 0b0000000 → decode w = .ok ⟨.w32, .xor rd rs1 rs2⟩) ∧
    (f3 = 0b101 → f7 = 0b0000000 → decode w = .ok ⟨.w32, .srl rd rs1 rs2⟩) ∧
    (f3 = 0b101 → f7 = 0b0100000 → decode w = .ok ⟨.w32, .sra rd rs1 rs2⟩) ∧
    (f3 = 0b110 → f7 = 0b0000000 → decode w = .ok ⟨.w32, .or rd rs1 rs2⟩) ∧
    (f3 = 0b111 → f7 = 0b0000000 → decode w = .ok ⟨.w32, .and rd rs1 rs2⟩) ∧
    ((f3 = 0b000 ∨ f3 = 0b101) → f7 ≠ 0b0000000 → f7 ≠ 0b0100000 →
      decode w = .err (.invalidFunct7 f3 f7)) ∧
    (f3 ≠ 0b000 → f3 ≠ 0b101 → f7 ≠ 0b0000000 → decode w = .err (.invalidFunct7 f3 f7))) ∧
  decode 0x003100B3 = .ok ⟨.w32, .add ⟨1⟩ ⟨2⟩ ⟨3⟩⟩ ∧
  decode 0x023100B3 = .err (.invalidFunct7 0b000 0b0000001) ∧
  decode 0x40628233 = .ok ⟨.w32, .sub ⟨4⟩ ⟨5⟩ ⟨6⟩⟩ ∧
  decode 0x009413B3 = .ok ⟨.w32, .sll ⟨7⟩ ⟨8⟩ ⟨9⟩⟩ ∧
  decode 0x00C5A533 = .ok ⟨.w32, .slt ⟨10⟩ ⟨11⟩ ⟨12⟩⟩ ∧
  decode 0x00F736B3 = .ok ⟨.w32, .sltu ⟨13⟩ ⟨14⟩ ⟨15⟩⟩ ∧
  decode 0x0128C833 = .ok ⟨.w32, .xor ⟨16⟩ ⟨17⟩ ⟨18⟩⟩ ∧
  decode 0x015A59B3 = .ok ⟨.w32, .srl ⟨19⟩ ⟨20⟩ ⟨21⟩⟩ ∧
  decode 0xFE3150B3 = .err (.invalidFunct7 0b101 0b1111111) ∧
  decode 0x418BDB33 = .ok ⟨.w32, .sra ⟨22⟩ ⟨23⟩ ⟨24⟩⟩ ∧
  decode 0x01BD6CB3 = .ok ⟨.w32, .or ⟨25⟩ ⟨26⟩ ⟨27⟩⟩ ∧
  decode 0x01EEFE33 = .ok ⟨.w32, .and ⟨28⟩ ⟨29⟩ ⟨30⟩⟩ ∧
  decode 0x403170B3 = .err (.invalidFunct7 0b111 0b0100000)

/-- R200 to R202: the MISC-MEM handler: funct3 alone decides and every other bit is ignored. -/
def Obligations.MiscMemWordsDecode : Prop :=
  (∀ w : Word, w.extractLsb' 0 7 = 0b0001111#7 →
    (w.extractLsb' 12 3 = 0b000#3 → decode w = .ok ⟨.w32, .fence⟩) ∧
    (w.extractLsb' 12 3 = 0b001#3 → decode w = .ok ⟨.w32, .fenceI⟩) ∧
    (w.extractLsb' 12 3 ≠ 0b000#3 → w.extractLsb' 12 3 ≠ 0b001#3 →
      decode w = .err (.invalidFunct3 0b0001111 (w.extractLsb' 12 3)))) ∧
  decode 0x0FF0000F = .ok ⟨.w32, .fence⟩ ∧ decode 0x0000000F = .ok ⟨.w32, .fence⟩ ∧
  decode 0x8330000F = .ok ⟨.w32, .fence⟩ ∧ decode 0x0100000F = .ok ⟨.w32, .fence⟩ ∧
  decode 0x0000100F = .ok ⟨.w32, .fenceI⟩ ∧
  decode 0x0000200F = .err (.invalidFunct3 0b0001111 0b010)

/-- R203 to R206: the markers by whole word before funct3 dispatch, then the CSR forms by funct3,
then InvalidFunct3 for 000 and 100. -/
def Obligations.SystemWordsDecode : Prop :=
  decode 0x30200073 = .ok ⟨.w32, .mret⟩ ∧ decode 0x00000073 = .ok ⟨.w32, .ecall⟩ ∧
  decode 0x00100073 = .ok ⟨.w32, .ebreak⟩ ∧
  (∀ w : Word, w.extractLsb' 0 7 = 0b1110011#7 →
    w ≠ 0x30200073 → w ≠ 0x00000073 → w ≠ 0x00100073 →
    (w.extractLsb' 12 3 = 0b000#3 → decode w = .err (.invalidFunct3 0b1110011 0b000)) ∧
    (w.extractLsb' 12 3 = 0b100#3 → decode w = .err (.invalidFunct3 0b1110011 0b100)) ∧
    (w.extractLsb' 12 3 ≠ 0b000#3 → w.extractLsb' 12 3 ≠ 0b100#3 →
      ∃ i : Instr, decode w = .ok ⟨.w32, i⟩ ∧ carriesCsr i.tag = true)) ∧
  decode 0x000000F3 = .err (.invalidFunct3 0b1110011 0b000) ∧
  decode 0x00108073 = .err (.invalidFunct3 0b1110011 0b000) ∧
  decode 0x302000F3 = .err (.invalidFunct3 0b1110011 0b000)

/-- R210 to R216: the six CSR forms; csr is word[31:20], zimm is word[19:15], neither is extended or
checked. -/
def Obligations.CsrWordsDecode : Prop :=
  (∀ w : Word, w.extractLsb' 0 7 = 0b1110011#7 →
    let rd : Register := ⟨w.extractLsb' 7 5⟩
    let rs1 : Register := ⟨w.extractLsb' 15 5⟩
    let csr : BitVec 12 := w.extractLsb' 20 12
    (w.extractLsb' 12 3 = 0b001#3 → decode w = .ok ⟨.w32, .csrrw rd rs1 csr⟩) ∧
    (w.extractLsb' 12 3 = 0b010#3 → decode w = .ok ⟨.w32, .csrrs rd rs1 csr⟩) ∧
    (w.extractLsb' 12 3 = 0b011#3 → decode w = .ok ⟨.w32, .csrrc rd rs1 csr⟩) ∧
    (w.extractLsb' 12 3 = 0b101#3 →
      decode w = .ok ⟨.w32, .csrrwi rd (w.extractLsb' 15 5) csr⟩) ∧
    (w.extractLsb' 12 3 = 0b110#3 →
      decode w = .ok ⟨.w32, .csrrsi rd (w.extractLsb' 15 5) csr⟩) ∧
    (w.extractLsb' 12 3 = 0b111#3 →
      decode w = .ok ⟨.w32, .csrrci rd (w.extractLsb' 15 5) csr⟩)) ∧
  decode 0x300110F3 = .ok ⟨.w32, .csrrw ⟨1⟩ ⟨2⟩ 0x300⟩ ∧
  decode 0xC00021F3 = .ok ⟨.w32, .csrrs ⟨3⟩ ⟨0⟩ 0xC00⟩ ∧
  decode 0x3442B273 = .ok ⟨.w32, .csrrc ⟨4⟩ ⟨5⟩ 0x344⟩ ∧
  decode 0x305FD073 = .ok ⟨.w32, .csrrwi ⟨0⟩ 31 0x305⟩ ∧
  decode 0x30046373 = .ok ⟨.w32, .csrrsi ⟨6⟩ 8 0x300⟩ ∧
  decode 0xFFF073F3 = .ok ⟨.w32, .csrrci ⟨7⟩ 0 0xFFF⟩ ∧
  decode 0x00004073 = .err (.invalidFunct3 0b1110011 0b100)

/-- A few words written out field by field from the format rows of R70. -/
def Obligations.SampleWordsDecode : Prop :=
  decode (0b0000000#7 ++ 0b00011#5 ++ 0b00010#5 ++ 0b000#3 ++ 0b00001#5 ++ 0b0110011#7) =
    .ok ⟨.w32, .add ⟨1⟩ ⟨2⟩ ⟨3⟩⟩ ∧
  decode (0b111111111111#12 ++ 0b00110#5 ++ 0b000#3 ++ 0b00101#5 ++ 0b0000011#7) =
    .ok ⟨.w32, .lb ⟨5⟩ ⟨6⟩ 0xFFFF⟩ ∧
  decode (0b0#1 ++ 0b000000#6 ++ 0b00010#5 ++ 0b00001#5 ++ 0b000#3 ++ 0b0100#4 ++ 0b0#1
      ++ 0b1100011#7) =
    .ok ⟨.w32, .beq ⟨1⟩ ⟨2⟩ 8⟩ ∧
  decode (0b001100000000#12 ++ 0b00010#5 ++ 0b001#3 ++ 0b00001#5 ++ 0b1110011#7) =
    .ok ⟨.w32, .csrrw ⟨1⟩ ⟨2⟩ 0x300⟩

/-! ### What each instruction drives (completion, result and frame) -/

/-- R31, R35: LUI, AUIPC and JAL complete in every state, drive tag, rd and imm, every other port 0,
and change nothing but the ports. -/
def Obligations.UpperImmediateAndJalDrivePorts : Prop :=
  ∀ (rd : Register) (imm : BitVec 32) (s : State),
    let p : BitVec 6 → Ports := fun t =>
      { ok := 1, width := 0, op := t, rd := rd.index, rs1 := 0, rs2 := 0, imm := imm,
        shamt := 0, zimm := 0, csr := 0, errKind := 0, errA := 0, errB := 0 }
    exec (.lui rd imm) s = .next { s with ports := p 0 } ∧
    exec (.auipc rd imm) s = .next { s with ports := p 1 } ∧
    exec (.jal rd imm) s = .next { s with ports := p 2 }

/-- R31, R35: JALR and the six OP-IMM non-shifts drive tag, rd, rs1 and imm. -/
def Obligations.JalrAndOpImmDrivePorts : Prop :=
  ∀ (rd rs1 : Register) (imm : BitVec 32) (s : State),
    let p : BitVec 6 → Ports := fun t =>
      { ok := 1, width := 0, op := t, rd := rd.index, rs1 := rs1.index, rs2 := 0, imm := imm,
        shamt := 0, zimm := 0, csr := 0, errKind := 0, errA := 0, errB := 0 }
    exec (.jalr rd rs1 imm) s = .next { s with ports := p 3 } ∧
    exec (.addi rd rs1 imm) s = .next { s with ports := p 18 } ∧
    exec (.slti rd rs1 imm) s = .next { s with ports := p 19 } ∧
    exec (.sltiu rd rs1 imm) s = .next { s with ports := p 20 } ∧
    exec (.xori rd rs1 imm) s = .next { s with ports := p 21 } ∧
    exec (.ori rd rs1 imm) s = .next { s with ports := p 22 } ∧
    exec (.andi rd rs1 imm) s = .next { s with ports := p 23 }

/-- R31, R35: the six branches and the three stores drive tag, rs1, rs2 and imm, and rd is 0. -/
def Obligations.BranchesAndStoresDrivePorts : Prop :=
  ∀ (rs1 rs2 : Register) (imm : BitVec 32) (s : State),
    let p : BitVec 6 → Ports := fun t =>
      { ok := 1, width := 0, op := t, rd := 0, rs1 := rs1.index, rs2 := rs2.index, imm := imm,
        shamt := 0, zimm := 0, csr := 0, errKind := 0, errA := 0, errB := 0 }
    exec (.beq rs1 rs2 imm) s = .next { s with ports := p 4 } ∧
    exec (.bne rs1 rs2 imm) s = .next { s with ports := p 5 } ∧
    exec (.blt rs1 rs2 imm) s = .next { s with ports := p 6 } ∧
    exec (.bge rs1 rs2 imm) s = .next { s with ports := p 7 } ∧
    exec (.bltu rs1 rs2 imm) s = .next { s with ports := p 8 } ∧
    exec (.bgeu rs1 rs2 imm) s = .next { s with ports := p 9 } ∧
    exec (.sb rs1 rs2 imm) s = .next { s with ports := p 15 } ∧
    exec (.sh rs1 rs2 imm) s = .next { s with ports := p 16 } ∧
    exec (.sw rs1 rs2 imm) s = .next { s with ports := p 17 }

/-- R31, R35: the five loads drive tag, rd, rs1, and imm16 in the low half of imm with the high half
0. -/
def Obligations.LoadsDrivePorts : Prop :=
  ∀ (rd rs1 : Register) (imm16 : BitVec 16) (s : State),
    let p : BitVec 6 → Ports := fun t =>
      { ok := 1, width := 0, op := t, rd := rd.index, rs1 := rs1.index, rs2 := 0, imm := 0#16 ++ imm16,
        shamt := 0, zimm := 0, csr := 0, errKind := 0, errA := 0, errB := 0 }
    exec (.lb rd rs1 imm16) s = .next { s with ports := p 10 } ∧
    exec (.lh rd rs1 imm16) s = .next { s with ports := p 11 } ∧
    exec (.lw rd rs1 imm16) s = .next { s with ports := p 12 } ∧
    exec (.lbu rd rs1 imm16) s = .next { s with ports := p 13 } ∧
    exec (.lhu rd rs1 imm16) s = .next { s with ports := p 14 }

/-- R31, R35: the immediate shifts drive tag, rd, rs1 and shamt, and imm is 0. -/
def Obligations.ImmediateShiftsDrivePorts : Prop :=
  ∀ (rd rs1 : Register) (shamt : BitVec 5) (s : State),
    let p : BitVec 6 → Ports := fun t =>
      { ok := 1, width := 0, op := t, rd := rd.index, rs1 := rs1.index, rs2 := 0, imm := 0,
        shamt := shamt, zimm := 0, csr := 0, errKind := 0, errA := 0, errB := 0 }
    exec (.slli rd rs1 shamt) s = .next { s with ports := p 24 } ∧
    exec (.srli rd rs1 shamt) s = .next { s with ports := p 25 } ∧
    exec (.srai rd rs1 shamt) s = .next { s with ports := p 26 }

/-- R31, R35: the ten OP instructions drive tag, rd, rs1 and rs2, and imm is 0. -/
def Obligations.OpInstructionsDrivePorts : Prop :=
  ∀ (rd rs1 rs2 : Register) (s : State),
    let p : BitVec 6 → Ports := fun t =>
      { ok := 1, width := 0, op := t, rd := rd.index, rs1 := rs1.index, rs2 := rs2.index, imm := 0,
        shamt := 0, zimm := 0, csr := 0, errKind := 0, errA := 0, errB := 0 }
    exec (.add rd rs1 rs2) s = .next { s with ports := p 27 } ∧
    exec (.sub rd rs1 rs2) s = .next { s with ports := p 28 } ∧
    exec (.sll rd rs1 rs2) s = .next { s with ports := p 29 } ∧
    exec (.slt rd rs1 rs2) s = .next { s with ports := p 30 } ∧
    exec (.sltu rd rs1 rs2) s = .next { s with ports := p 31 } ∧
    exec (.xor rd rs1 rs2) s = .next { s with ports := p 32 } ∧
    exec (.srl rd rs1 rs2) s = .next { s with ports := p 33 } ∧
    exec (.sra rd rs1 rs2) s = .next { s with ports := p 34 } ∧
    exec (.or rd rs1 rs2) s = .next { s with ports := p 35 } ∧
    exec (.and rd rs1 rs2) s = .next { s with ports := p 36 }

/-- R31, R35, R305: the markers complete in every state with their tag and every field port 0; ECALL,
EBREAK and MRET raise nothing. -/
def Obligations.MarkersDrivePorts : Prop :=
  ∀ (s : State),
    let p : BitVec 6 → Ports := fun t =>
      { ok := 1, width := 0, op := t, rd := 0, rs1 := 0, rs2 := 0, imm := 0,
        shamt := 0, zimm := 0, csr := 0, errKind := 0, errA := 0, errB := 0 }
    exec .fence s = .next { s with ports := p 37 } ∧
    exec .fenceI s = .next { s with ports := p 38 } ∧
    exec .ecall s = .next { s with ports := p 39 } ∧
    exec .ebreak s = .next { s with ports := p 40 } ∧
    exec .mret s = .next { s with ports := p 41 }

/-- R31, R35: the CSR instructions drive tag, rd, csr, and rs1 or zimm. -/
def Obligations.CsrInstructionsDrivePorts : Prop :=
  (∀ (rd rs1 : Register) (csr : BitVec 12) (s : State),
    let p : BitVec 6 → Ports := fun t =>
      { ok := 1, width := 0, op := t, rd := rd.index, rs1 := rs1.index, rs2 := 0, imm := 0,
        shamt := 0, zimm := 0, csr := csr, errKind := 0, errA := 0, errB := 0 }
    exec (.csrrw rd rs1 csr) s = .next { s with ports := p 42 } ∧
    exec (.csrrs rd rs1 csr) s = .next { s with ports := p 43 } ∧
    exec (.csrrc rd rs1 csr) s = .next { s with ports := p 44 }) ∧
  (∀ (rd : Register) (zimm : BitVec 5) (csr : BitVec 12) (s : State),
    let p : BitVec 6 → Ports := fun t =>
      { ok := 1, width := 0, op := t, rd := rd.index, rs1 := 0, rs2 := 0, imm := 0,
        shamt := 0, zimm := zimm, csr := csr, errKind := 0, errA := 0, errB := 0 }
    exec (.csrrwi rd zimm csr) s = .next { s with ports := p 45 } ∧
    exec (.csrrsi rd zimm csr) s = .next { s with ports := p 46 } ∧
    exec (.csrrci rd zimm csr) s = .next { s with ports := p 47 })

/-- The pseudo-instruction expands to these base variants, and the word of each decodes to it. -/
def assemblesTo (p : Pseudo) (is : List Instr) : Prop :=
  expand p = is ∧
  (expand p).map (fun i => decode (encode i)) = is.map (fun i => DecodeResult.ok ⟨.w32, i⟩)

/-- The upper part of R104: hi20, one more when lo12 is negative, over twelve zeros. -/
def upperPart (v : BitVec 32) : BitVec 32 :=
  (v.extractLsb' 12 20 + (if v.getLsbD 11 then 1#20 else 0#20)) ++ 0#12

/-- The lower part of R104: lo12, sign-extended. -/
def lowerPart (v : BitVec 32) : BitVec 32 := (v.extractLsb' 0 12).signExtend 32

/-- R104, taken by the spec from general knowledge, row by row: the base variants each
pseudo-instruction assembles to, for all operands its format can hold, and that their words decode to
those variants; an upper and a lower part add up to the value they stand for (log entry 15). -/
def Obligations.PseudoInstructionsDecodeToExpansion : Prop :=
  assemblesTo .nop [.addi ⟨0⟩ ⟨0⟩ 0] ∧
  (∀ v : BitVec 32, upperPart v + lowerPart v = v) ∧
  (∀ (rd : Register) (imm : BitVec 32), -2048 ≤ imm.toInt → imm.toInt ≤ 2047 →
    assemblesTo (.li rd imm) [.addi rd ⟨0⟩ imm]) ∧
  (∀ (rd : Register) (imm : BitVec 32), imm.toInt < -2048 ∨ 2047 < imm.toInt →
    assemblesTo (.li rd imm) [.lui rd (upperPart imm), .addi rd rd (lowerPart imm)]) ∧
  (∀ rd rs : Register,
    assemblesTo (.mv rd rs) [.addi rd rs 0] ∧
    assemblesTo (.not rd rs) [.xori rd rs 0xFFFFFFFF] ∧
    assemblesTo (.neg rd rs) [.sub rd ⟨0⟩ rs] ∧
    assemblesTo (.seqz rd rs) [.sltiu rd rs 1] ∧
    assemblesTo (.snez rd rs) [.sltu rd ⟨0⟩ rs] ∧
    assemblesTo (.sltz rd rs) [.slt rd rs ⟨0⟩] ∧
    assemblesTo (.sgtz rd rs) [.slt rd ⟨0⟩ rs]) ∧
  (∀ (rs a b : Register) (off : BitVec 32), immBOk off = true →
    assemblesTo (.beqz rs off) [.beq rs ⟨0⟩ off] ∧
    assemblesTo (.bnez rs off) [.bne rs ⟨0⟩ off] ∧
    assemblesTo (.blez rs off) [.bge ⟨0⟩ rs off] ∧
    assemblesTo (.bgez rs off) [.bge rs ⟨0⟩ off] ∧
    assemblesTo (.bltz rs off) [.blt rs ⟨0⟩ off] ∧
    assemblesTo (.bgtz rs off) [.blt ⟨0⟩ rs off] ∧
    assemblesTo (.bgt a b off) [.blt b a off] ∧
    assemblesTo (.ble a b off) [.bge b a off] ∧
    assemblesTo (.bgtu a b off) [.bltu b a off] ∧
    assemblesTo (.bleu a b off) [.bgeu b a off]) ∧
  (∀ off : BitVec 32, immJOk off = true →
    assemblesTo (.j off) [.jal ⟨0⟩ off] ∧ assemblesTo (.jal off) [.jal ⟨1⟩ off]) ∧
  (∀ rs : Register,
    assemblesTo (.jr rs) [.jalr ⟨0⟩ rs 0] ∧ assemblesTo (.jalr rs) [.jalr ⟨1⟩ rs 0]) ∧
  assemblesTo .ret [.jalr ⟨0⟩ ⟨1⟩ 0] ∧
  (∀ (rd : Register) (off : BitVec 32),
    assemblesTo (.call off) [.auipc ⟨1⟩ (upperPart off), .jalr ⟨1⟩ ⟨1⟩ (lowerPart off)] ∧
    assemblesTo (.tail off) [.auipc ⟨6⟩ (upperPart off), .jalr ⟨0⟩ ⟨6⟩ (lowerPart off)] ∧
    assemblesTo (.la rd off) [.auipc rd (upperPart off), .addi rd rd (lowerPart off)] ∧
    assemblesTo (.lla rd off) [.auipc rd (upperPart off), .addi rd rd (lowerPart off)]) ∧
  (assemblesTo .fence [.fence] ∧ decode 0x0FF0000F = .ok ⟨.w32, .fence⟩) ∧
  (∀ (rd rs : Register) (csr : BitVec 12) (z : BitVec 5),
    assemblesTo (.csrr rd csr) [.csrrs rd ⟨0⟩ csr] ∧
    assemblesTo (.csrw csr rs) [.csrrw ⟨0⟩ rs csr] ∧
    assemblesTo (.csrs csr rs) [.csrrs ⟨0⟩ rs csr] ∧
    assemblesTo (.csrc csr rs) [.csrrc ⟨0⟩ rs csr] ∧
    assemblesTo (.csrwi csr z) [.csrrwi ⟨0⟩ z csr] ∧
    assemblesTo (.csrsi csr z) [.csrrsi ⟨0⟩ z csr] ∧
    assemblesTo (.csrci csr z) [.csrrci ⟨0⟩ z csr]) ∧
  (∀ rd : Register,
    assemblesTo (.rdcycle rd) [.csrrs rd ⟨0⟩ 0xC00] ∧
    assemblesTo (.rdtime rd) [.csrrs rd ⟨0⟩ 0xC01] ∧
    assemblesTo (.rdinstret rd) [.csrrs rd ⟨0⟩ 0xC02])
end

