-- ==== Sys2Proof/Laws/Encoding.lean ====
section
/-! SUPPORT. Each format's encoder, field by field: what the decoder's extractions read back from a
word it built. -/

namespace Sys2Proof

/-! Each encoder as a concatenation whose width is still a sum, so that the library's lemmas about
bits of a concatenation apply. -/

theorem encR_cast (f7 rs2 rs1 f3 rd c) : encR f7 rs2 rs1 f3 rd c =
    (f7 ++ rs2.index ++ rs1.index ++ f3 ++ rd.index ++ c.code).cast (by rfl) := rfl

theorem encI_cast (imm rs1 f3 rd c) : encI imm rs1 f3 rd c =
    (imm ++ rs1 ++ f3 ++ rd.index ++ c.code).cast (by rfl) := rfl

theorem encShift_cast (f7 shamt rs1 f3 rd c) : encShift f7 shamt rs1 f3 rd c =
    (f7 ++ shamt ++ rs1.index ++ f3 ++ rd.index ++ c.code).cast (by rfl) := rfl

theorem encS_cast (imm rs2 rs1 f3 c) : encS imm rs2 rs1 f3 c =
    (imm.extractLsb' 5 7 ++ rs2.index ++ rs1.index ++ f3 ++ imm.extractLsb' 0 5
      ++ c.code).cast (by rfl) := rfl

theorem encB_cast (imm rs2 rs1 f3 c) : encB imm rs2 rs1 f3 c =
    (imm.extractLsb' 12 1 ++ imm.extractLsb' 5 6 ++ rs2.index ++ rs1.index ++ f3
      ++ imm.extractLsb' 1 4 ++ imm.extractLsb' 11 1 ++ c.code).cast (by rfl) := rfl

theorem encU_cast (imm rd c) : encU imm rd c =
    (imm.extractLsb' 12 20 ++ rd.index ++ c.code).cast (by rfl) := rfl

theorem encJ_cast (imm rd c) : encJ imm rd c =
    (imm.extractLsb' 20 1 ++ imm.extractLsb' 1 10 ++ imm.extractLsb' 11 1
      ++ imm.extractLsb' 12 8 ++ rd.index ++ c.code).cast (by rfl) := rfl

theorem assemble_cast (b0 b1 b2 b3) : assemble b0 b1 b2 b3 =
    (b3 ++ b2 ++ b1 ++ b0).cast (by rfl) := rfl

theorem immU_cast (w : Word) : immU w = (w.extractLsb' 12 20 ++ 0#12).cast (by rfl) := rfl

@[simp] theorem opcodeOf_encR (f7 rs2 rs1 f3 rd c) : opcodeOf (encR f7 rs2 rs1 f3 rd c) = c.code := by
  apply BitVec.eq_of_getLsbD_eq
  intro i hi
  simp only [opcodeOf, encR_cast, BitVec.getLsbD_extractLsb', BitVec.getLsbD_cast, BitVec.getLsbD_append]
  interval_cases i <;> simp

@[simp] theorem rdOf_encR (f7 rs2 rs1 f3 rd c) : rdOf (encR f7 rs2 rs1 f3 rd c) = rd.index := by
  apply BitVec.eq_of_getLsbD_eq
  intro i hi
  simp only [rdOf, encR_cast, BitVec.getLsbD_extractLsb', BitVec.getLsbD_cast, BitVec.getLsbD_append]
  interval_cases i <;> simp

@[simp] theorem funct3Of_encR (f7 rs2 rs1 f3 rd c) : funct3Of (encR f7 rs2 rs1 f3 rd c) = f3 := by
  apply BitVec.eq_of_getLsbD_eq
  intro i hi
  simp only [funct3Of, encR_cast, BitVec.getLsbD_extractLsb', BitVec.getLsbD_cast, BitVec.getLsbD_append]
  interval_cases i <;> simp

@[simp] theorem rs1Of_encR (f7 rs2 rs1 f3 rd c) : rs1Of (encR f7 rs2 rs1 f3 rd c) = rs1.index := by
  apply BitVec.eq_of_getLsbD_eq
  intro i hi
  simp only [rs1Of, encR_cast, BitVec.getLsbD_extractLsb', BitVec.getLsbD_cast, BitVec.getLsbD_append]
  interval_cases i <;> simp

@[simp] theorem rs2Of_encR (f7 rs2 rs1 f3 rd c) : rs2Of (encR f7 rs2 rs1 f3 rd c) = rs2.index := by
  apply BitVec.eq_of_getLsbD_eq
  intro i hi
  simp only [rs2Of, encR_cast, BitVec.getLsbD_extractLsb', BitVec.getLsbD_cast, BitVec.getLsbD_append]
  interval_cases i <;> simp

@[simp] theorem funct7Of_encR (f7 rs2 rs1 f3 rd c) : funct7Of (encR f7 rs2 rs1 f3 rd c) = f7 := by
  apply BitVec.eq_of_getLsbD_eq
  intro i hi
  simp only [funct7Of, encR_cast, BitVec.getLsbD_extractLsb', BitVec.getLsbD_cast, BitVec.getLsbD_append]
  interval_cases i <;> simp

@[simp] theorem opcodeOf_encI (imm rs1 f3 rd c) : opcodeOf (encI imm rs1 f3 rd c) = c.code := by
  apply BitVec.eq_of_getLsbD_eq
  intro i hi
  simp only [opcodeOf, encI_cast, BitVec.getLsbD_extractLsb', BitVec.getLsbD_cast, BitVec.getLsbD_append]
  interval_cases i <;> simp

@[simp] theorem rdOf_encI (imm rs1 f3 rd c) : rdOf (encI imm rs1 f3 rd c) = rd.index := by
  apply BitVec.eq_of_getLsbD_eq
  intro i hi
  simp only [rdOf, encI_cast, BitVec.getLsbD_extractLsb', BitVec.getLsbD_cast, BitVec.getLsbD_append]
  interval_cases i <;> simp

@[simp] theorem funct3Of_encI (imm rs1 f3 rd c) : funct3Of (encI imm rs1 f3 rd c) = f3 := by
  apply BitVec.eq_of_getLsbD_eq
  intro i hi
  simp only [funct3Of, encI_cast, BitVec.getLsbD_extractLsb', BitVec.getLsbD_cast, BitVec.getLsbD_append]
  interval_cases i <;> simp

@[simp] theorem rs1Of_encI (imm rs1 f3 rd c) : rs1Of (encI imm rs1 f3 rd c) = rs1 := by
  apply BitVec.eq_of_getLsbD_eq
  intro i hi
  simp only [rs1Of, encI_cast, BitVec.getLsbD_extractLsb', BitVec.getLsbD_cast, BitVec.getLsbD_append]
  interval_cases i <;> simp

@[simp] theorem zimmOf_encI (imm rs1 f3 rd c) : zimmOf (encI imm rs1 f3 rd c) = rs1 := by
  apply BitVec.eq_of_getLsbD_eq
  intro i hi
  simp only [zimmOf, encI_cast, BitVec.getLsbD_extractLsb', BitVec.getLsbD_cast, BitVec.getLsbD_append]
  interval_cases i <;> simp

@[simp] theorem csrOf_encI (imm rs1 f3 rd c) : csrOf (encI imm rs1 f3 rd c) = imm := by
  apply BitVec.eq_of_getLsbD_eq
  intro i hi
  simp only [csrOf, encI_cast, BitVec.getLsbD_extractLsb', BitVec.getLsbD_cast, BitVec.getLsbD_append]
  interval_cases i <;> simp

@[simp] theorem opcodeOf_encShift (f7 shamt rs1 f3 rd c) : opcodeOf (encShift f7 shamt rs1 f3 rd c) = c.code := by
  apply BitVec.eq_of_getLsbD_eq
  intro i hi
  simp only [opcodeOf, encShift_cast, BitVec.getLsbD_extractLsb', BitVec.getLsbD_cast, BitVec.getLsbD_append]
  interval_cases i <;> simp

@[simp] theorem rdOf_encShift (f7 shamt rs1 f3 rd c) : rdOf (encShift f7 shamt rs1 f3 rd c) = rd.index := by
  apply BitVec.eq_of_getLsbD_eq
  intro i hi
  simp only [rdOf, encShift_cast, BitVec.getLsbD_extractLsb', BitVec.getLsbD_cast, BitVec.getLsbD_append]
  interval_cases i <;> simp

@[simp] theorem funct3Of_encShift (f7 shamt rs1 f3 rd c) : funct3Of (encShift f7 shamt rs1 f3 rd c) = f3 := by
  apply BitVec.eq_of_getLsbD_eq
  intro i hi
  simp only [funct3Of, encShift_cast, BitVec.getLsbD_extractLsb', BitVec.getLsbD_cast, BitVec.getLsbD_append]
  interval_cases i <;> simp

@[simp] theorem rs1Of_encShift (f7 shamt rs1 f3 rd c) : rs1Of (encShift f7 shamt rs1 f3 rd c) = rs1.index := by
  apply BitVec.eq_of_getLsbD_eq
  intro i hi
  simp only [rs1Of, encShift_cast, BitVec.getLsbD_extractLsb', BitVec.getLsbD_cast, BitVec.getLsbD_append]
  interval_cases i <;> simp

@[simp] theorem shamtOf_encShift (f7 shamt rs1 f3 rd c) : shamtOf (encShift f7 shamt rs1 f3 rd c) = shamt := by
  apply BitVec.eq_of_getLsbD_eq
  intro i hi
  simp only [shamtOf, encShift_cast, BitVec.getLsbD_extractLsb', BitVec.getLsbD_cast, BitVec.getLsbD_append]
  interval_cases i <;> simp

@[simp] theorem funct7Of_encShift (f7 shamt rs1 f3 rd c) : funct7Of (encShift f7 shamt rs1 f3 rd c) = f7 := by
  apply BitVec.eq_of_getLsbD_eq
  intro i hi
  simp only [funct7Of, encShift_cast, BitVec.getLsbD_extractLsb', BitVec.getLsbD_cast, BitVec.getLsbD_append]
  interval_cases i <;> simp

@[simp] theorem opcodeOf_encS (imm rs2 rs1 f3 c) : opcodeOf (encS imm rs2 rs1 f3 c) = c.code := by
  apply BitVec.eq_of_getLsbD_eq
  intro i hi
  simp only [opcodeOf, encS_cast, BitVec.getLsbD_extractLsb', BitVec.getLsbD_cast, BitVec.getLsbD_append]
  interval_cases i <;> simp

@[simp] theorem funct3Of_encS (imm rs2 rs1 f3 c) : funct3Of (encS imm rs2 rs1 f3 c) = f3 := by
  apply BitVec.eq_of_getLsbD_eq
  intro i hi
  simp only [funct3Of, encS_cast, BitVec.getLsbD_extractLsb', BitVec.getLsbD_cast, BitVec.getLsbD_append]
  interval_cases i <;> simp

@[simp] theorem rs1Of_encS (imm rs2 rs1 f3 c) : rs1Of (encS imm rs2 rs1 f3 c) = rs1.index := by
  apply BitVec.eq_of_getLsbD_eq
  intro i hi
  simp only [rs1Of, encS_cast, BitVec.getLsbD_extractLsb', BitVec.getLsbD_cast, BitVec.getLsbD_append]
  interval_cases i <;> simp

@[simp] theorem rs2Of_encS (imm rs2 rs1 f3 c) : rs2Of (encS imm rs2 rs1 f3 c) = rs2.index := by
  apply BitVec.eq_of_getLsbD_eq
  intro i hi
  simp only [rs2Of, encS_cast, BitVec.getLsbD_extractLsb', BitVec.getLsbD_cast, BitVec.getLsbD_append]
  interval_cases i <;> simp

@[simp] theorem opcodeOf_encB (imm rs2 rs1 f3 c) : opcodeOf (encB imm rs2 rs1 f3 c) = c.code := by
  apply BitVec.eq_of_getLsbD_eq
  intro i hi
  simp only [opcodeOf, encB_cast, BitVec.getLsbD_extractLsb', BitVec.getLsbD_cast, BitVec.getLsbD_append]
  interval_cases i <;> simp

@[simp] theorem funct3Of_encB (imm rs2 rs1 f3 c) : funct3Of (encB imm rs2 rs1 f3 c) = f3 := by
  apply BitVec.eq_of_getLsbD_eq
  intro i hi
  simp only [funct3Of, encB_cast, BitVec.getLsbD_extractLsb', BitVec.getLsbD_cast, BitVec.getLsbD_append]
  interval_cases i <;> simp

@[simp] theorem rs1Of_encB (imm rs2 rs1 f3 c) : rs1Of (encB imm rs2 rs1 f3 c) = rs1.index := by
  apply BitVec.eq_of_getLsbD_eq
  intro i hi
  simp only [rs1Of, encB_cast, BitVec.getLsbD_extractLsb', BitVec.getLsbD_cast, BitVec.getLsbD_append]
  interval_cases i <;> simp

@[simp] theorem rs2Of_encB (imm rs2 rs1 f3 c) : rs2Of (encB imm rs2 rs1 f3 c) = rs2.index := by
  apply BitVec.eq_of_getLsbD_eq
  intro i hi
  simp only [rs2Of, encB_cast, BitVec.getLsbD_extractLsb', BitVec.getLsbD_cast, BitVec.getLsbD_append]
  interval_cases i <;> simp

@[simp] theorem opcodeOf_encU (imm rd c) : opcodeOf (encU imm rd c) = c.code := by
  apply BitVec.eq_of_getLsbD_eq
  intro i hi
  simp only [opcodeOf, encU_cast, BitVec.getLsbD_extractLsb', BitVec.getLsbD_cast, BitVec.getLsbD_append]
  interval_cases i <;> simp

@[simp] theorem rdOf_encU (imm rd c) : rdOf (encU imm rd c) = rd.index := by
  apply BitVec.eq_of_getLsbD_eq
  intro i hi
  simp only [rdOf, encU_cast, BitVec.getLsbD_extractLsb', BitVec.getLsbD_cast, BitVec.getLsbD_append]
  interval_cases i <;> simp

@[simp] theorem opcodeOf_encJ (imm rd c) : opcodeOf (encJ imm rd c) = c.code := by
  apply BitVec.eq_of_getLsbD_eq
  intro i hi
  simp only [opcodeOf, encJ_cast, BitVec.getLsbD_extractLsb', BitVec.getLsbD_cast, BitVec.getLsbD_append]
  interval_cases i <;> simp

@[simp] theorem rdOf_encJ (imm rd c) : rdOf (encJ imm rd c) = rd.index := by
  apply BitVec.eq_of_getLsbD_eq
  intro i hi
  simp only [rdOf, encJ_cast, BitVec.getLsbD_extractLsb', BitVec.getLsbD_cast, BitVec.getLsbD_append]
  interval_cases i <;> simp

/-- The wrapper puts a word's byte lanes together again (R51). -/
theorem assemble_lanes (w : Word) :
    assemble (laneOf w 0) (laneOf w 1) (laneOf w 2) (laneOf w 3) = w := by
  apply BitVec.eq_of_getLsbD_eq
  intro i hi
  simp only [assemble_cast, BitVec.getLsbD_cast, BitVec.getLsbD_append]
  interval_cases i <;> simp [laneOf]

end Sys2Proof
end

