-- ==== Sys2Proof/Laws/Decode.lean ====
section
/-! SUPPORT. The decoder said once: register resolution never fails, a class is its opcode value, and
`decode_cases` lists everything `decode` can answer with the fields that lead there. Provers cite it
and do not unfold the handlers. -/

namespace Sys2Proof

/-- A zero-extended 5-bit field always resolves. -/
@[simp] theorem resolve_setWidth (f : BitVec 5) : resolve (f.setWidth 8) = .ok ⟨f⟩ := by
  have h : f.setWidth 8 ≤ 31#8 := by
    have := f.isLt
    simp [BitVec.le_def]; omega
  simp [resolve, h]

@[simp] theorem withReg_eq (f : BitVec 5) (k : Register → DecodeResult) :
    withReg f k = k ⟨f⟩ := by
  simp [withReg]

@[simp] theorem emitOk_eq (v : Instr) : emitOk v = .ok ⟨.w32, v⟩ := rfl
@[simp] theorem raiseErr_eq (e : DecodeError) : raiseErr e = .err e := rfl

@[simp] theorem reconstruct_i (w : Word) : (reconstruct w).i = immI w := rfl
@[simp] theorem reconstruct_l (w : Word) : (reconstruct w).l = immL w := rfl
@[simp] theorem reconstruct_s (w : Word) : (reconstruct w).s = immS w := rfl
@[simp] theorem reconstruct_b (w : Word) : (reconstruct w).b = immB w := rfl
@[simp] theorem reconstruct_u (w : Word) : (reconstruct w).u = immU w := rfl
@[simp] theorem reconstruct_j (w : Word) : (reconstruct w).j = immJ w := rfl

@[simp] theorem classOf_code (c : OpcodeClass) : classOf c.code = some c := by
  cases c <;> decide

/-- The class of an opcode value is the one with that value. -/
theorem classOf_eq_some {code : BitVec 7} {c : OpcodeClass} (h : classOf code = some c) :
    code = c.code := by
  have := List.find?_some (p := fun c' : OpcodeClass => c'.code == code) h
  exact (by simpa using this : c.code = code).symm

theorem funct3_cases (f : BitVec 3) :
    f = 0#3 ∨ f = 1#3 ∨ f = 2#3 ∨ f = 3#3 ∨ f = 4#3 ∨ f = 5#3 ∨ f = 6#3 ∨ f = 7#3 := by
  revert f; decide

@[simp] theorem opcodeOf_mret : opcodeOf mretWord = 0b1110011 := by decide
@[simp] theorem opcodeOf_ecall : opcodeOf ecallWord = 0b1110011 := by decide
@[simp] theorem opcodeOf_ebreak : opcodeOf ebreakWord = 0b1110011 := by decide

/-- Every answer of `decode`, with the fields of the word that lead to it. -/
inductive DecodeCase (w : Word) : DecodeResult → Prop where
  | unrecognized (h : classOf (opcodeOf w) = none) :
      DecodeCase w (.err (.unrecognizedOpcode (opcodeOf w)))
  | funct3 (c : OpcodeClass) (hc : classOf (opcodeOf w) = some c)
      (hm : Machine.isMarkerWord w = false) (h : Machine.funct3Raises c (funct3Of w) = true) :
      DecodeCase w (.err (.invalidFunct3 (opcodeOf w) (funct3Of w)))
  | funct7 (c : OpcodeClass) (hc : classOf (opcodeOf w) = some c)
      (hm : Machine.isMarkerWord w = false)
      (h3 : Machine.funct3Raises c (funct3Of w) = false)
      (h : Machine.funct7Raises c (funct3Of w) (funct7Of w) = true) :
      DecodeCase w (.err (.invalidFunct7 (funct3Of w) (funct7Of w)))
  | lui (h : opcodeOf w = 0b0110111#7) :
      DecodeCase w (.ok ⟨.w32, .lui ⟨rdOf w⟩ (immU w)⟩)
  | auipc (h : opcodeOf w = 0b0010111#7) :
      DecodeCase w (.ok ⟨.w32, .auipc ⟨rdOf w⟩ (immU w)⟩)
  | jal (h : opcodeOf w = 0b1101111#7) :
      DecodeCase w (.ok ⟨.w32, .jal ⟨rdOf w⟩ (immJ w)⟩)
  | jalr (h : opcodeOf w = 0b1100111#7) (h3 : funct3Of w = 0b000#3) :
      DecodeCase w (.ok ⟨.w32, .jalr ⟨rdOf w⟩ ⟨rs1Of w⟩ (immI w)⟩)
  | beq (h : opcodeOf w = 0b1100011#7) (h3 : funct3Of w = 0b000#3) :
      DecodeCase w (.ok ⟨.w32, .beq ⟨rs1Of w⟩ ⟨rs2Of w⟩ (immB w)⟩)
  | bne (h : opcodeOf w = 0b1100011#7) (h3 : funct3Of w = 0b001#3) :
      DecodeCase w (.ok ⟨.w32, .bne ⟨rs1Of w⟩ ⟨rs2Of w⟩ (immB w)⟩)
  | blt (h : opcodeOf w = 0b1100011#7) (h3 : funct3Of w = 0b100#3) :
      DecodeCase w (.ok ⟨.w32, .blt ⟨rs1Of w⟩ ⟨rs2Of w⟩ (immB w)⟩)
  | bge (h : opcodeOf w = 0b1100011#7) (h3 : funct3Of w = 0b101#3) :
      DecodeCase w (.ok ⟨.w32, .bge ⟨rs1Of w⟩ ⟨rs2Of w⟩ (immB w)⟩)
  | bltu (h : opcodeOf w = 0b1100011#7) (h3 : funct3Of w = 0b110#3) :
      DecodeCase w (.ok ⟨.w32, .bltu ⟨rs1Of w⟩ ⟨rs2Of w⟩ (immB w)⟩)
  | bgeu (h : opcodeOf w = 0b1100011#7) (h3 : funct3Of w = 0b111#3) :
      DecodeCase w (.ok ⟨.w32, .bgeu ⟨rs1Of w⟩ ⟨rs2Of w⟩ (immB w)⟩)
  | lb (h : opcodeOf w = 0b0000011#7) (h3 : funct3Of w = 0b000#3) :
      DecodeCase w (.ok ⟨.w32, .lb ⟨rdOf w⟩ ⟨rs1Of w⟩ (immL w)⟩)
  | lh (h : opcodeOf w = 0b0000011#7) (h3 : funct3Of w = 0b001#3) :
      DecodeCase w (.ok ⟨.w32, .lh ⟨rdOf w⟩ ⟨rs1Of w⟩ (immL w)⟩)
  | lw (h : opcodeOf w = 0b0000011#7) (h3 : funct3Of w = 0b010#3) :
      DecodeCase w (.ok ⟨.w32, .lw ⟨rdOf w⟩ ⟨rs1Of w⟩ (immL w)⟩)
  | lbu (h : opcodeOf w = 0b0000011#7) (h3 : funct3Of w = 0b100#3) :
      DecodeCase w (.ok ⟨.w32, .lbu ⟨rdOf w⟩ ⟨rs1Of w⟩ (immL w)⟩)
  | lhu (h : opcodeOf w = 0b0000011#7) (h3 : funct3Of w = 0b101#3) :
      DecodeCase w (.ok ⟨.w32, .lhu ⟨rdOf w⟩ ⟨rs1Of w⟩ (immL w)⟩)
  | sb (h : opcodeOf w = 0b0100011#7) (h3 : funct3Of w = 0b000#3) :
      DecodeCase w (.ok ⟨.w32, .sb ⟨rs1Of w⟩ ⟨rs2Of w⟩ (immS w)⟩)
  | sh (h : opcodeOf w = 0b0100011#7) (h3 : funct3Of w = 0b001#3) :
      DecodeCase w (.ok ⟨.w32, .sh ⟨rs1Of w⟩ ⟨rs2Of w⟩ (immS w)⟩)
  | sw (h : opcodeOf w = 0b0100011#7) (h3 : funct3Of w = 0b010#3) :
      DecodeCase w (.ok ⟨.w32, .sw ⟨rs1Of w⟩ ⟨rs2Of w⟩ (immS w)⟩)
  | addi (h : opcodeOf w = 0b0010011#7) (h3 : funct3Of w = 0b000#3) :
      DecodeCase w (.ok ⟨.w32, .addi ⟨rdOf w⟩ ⟨rs1Of w⟩ (immI w)⟩)
  | slti (h : opcodeOf w = 0b0010011#7) (h3 : funct3Of w = 0b010#3) :
      DecodeCase w (.ok ⟨.w32, .slti ⟨rdOf w⟩ ⟨rs1Of w⟩ (immI w)⟩)
  | sltiu (h : opcodeOf w = 0b0010011#7) (h3 : funct3Of w = 0b011#3) :
      DecodeCase w (.ok ⟨.w32, .sltiu ⟨rdOf w⟩ ⟨rs1Of w⟩ (immI w)⟩)
  | xori (h : opcodeOf w = 0b0010011#7) (h3 : funct3Of w = 0b100#3) :
      DecodeCase w (.ok ⟨.w32, .xori ⟨rdOf w⟩ ⟨rs1Of w⟩ (immI w)⟩)
  | ori (h : opcodeOf w = 0b0010011#7) (h3 : funct3Of w = 0b110#3) :
      DecodeCase w (.ok ⟨.w32, .ori ⟨rdOf w⟩ ⟨rs1Of w⟩ (immI w)⟩)
  | andi (h : opcodeOf w = 0b0010011#7) (h3 : funct3Of w = 0b111#3) :
      DecodeCase w (.ok ⟨.w32, .andi ⟨rdOf w⟩ ⟨rs1Of w⟩ (immI w)⟩)
  | slli (h : opcodeOf w = 0b0010011#7) (h3 : funct3Of w = 0b001#3)
      (h7 : funct7Of w = 0b0000000#7) :
      DecodeCase w (.ok ⟨.w32, .slli ⟨rdOf w⟩ ⟨rs1Of w⟩ (shamtOf w)⟩)
  | srli (h : opcodeOf w = 0b0010011#7) (h3 : funct3Of w = 0b101#3)
      (h7 : funct7Of w = 0b0000000#7) :
      DecodeCase w (.ok ⟨.w32, .srli ⟨rdOf w⟩ ⟨rs1Of w⟩ (shamtOf w)⟩)
  | srai (h : opcodeOf w = 0b0010011#7) (h3 : funct3Of w = 0b101#3)
      (h7 : funct7Of w = 0b0100000#7) :
      DecodeCase w (.ok ⟨.w32, .srai ⟨rdOf w⟩ ⟨rs1Of w⟩ (shamtOf w)⟩)
  | add (h : opcodeOf w = 0b0110011#7) (h3 : funct3Of w = 0b000#3)
      (h7 : funct7Of w = 0b0000000#7) :
      DecodeCase w (.ok ⟨.w32, .add ⟨rdOf w⟩ ⟨rs1Of w⟩ ⟨rs2Of w⟩⟩)
  | sub (h : opcodeOf w = 0b0110011#7) (h3 : funct3Of w = 0b000#3)
      (h7 : funct7Of w = 0b0100000#7) :
      DecodeCase w (.ok ⟨.w32, .sub ⟨rdOf w⟩ ⟨rs1Of w⟩ ⟨rs2Of w⟩⟩)
  | sll (h : opcodeOf w = 0b0110011#7) (h3 : funct3Of w = 0b001#3)
      (h7 : funct7Of w = 0b0000000#7) :
      DecodeCase w (.ok ⟨.w32, .sll ⟨rdOf w⟩ ⟨rs1Of w⟩ ⟨rs2Of w⟩⟩)
  | slt (h : opcodeOf w = 0b0110011#7) (h3 : funct3Of w = 0b010#3)
      (h7 : funct7Of w = 0b0000000#7) :
      DecodeCase w (.ok ⟨.w32, .slt ⟨rdOf w⟩ ⟨rs1Of w⟩ ⟨rs2Of w⟩⟩)
  | sltu (h : opcodeOf w = 0b0110011#7) (h3 : funct3Of w = 0b011#3)
      (h7 : funct7Of w = 0b0000000#7) :
      DecodeCase w (.ok ⟨.w32, .sltu ⟨rdOf w⟩ ⟨rs1Of w⟩ ⟨rs2Of w⟩⟩)
  | xor (h : opcodeOf w = 0b0110011#7) (h3 : funct3Of w = 0b100#3)
      (h7 : funct7Of w = 0b0000000#7) :
      DecodeCase w (.ok ⟨.w32, .xor ⟨rdOf w⟩ ⟨rs1Of w⟩ ⟨rs2Of w⟩⟩)
  | srl (h : opcodeOf w = 0b0110011#7) (h3 : funct3Of w = 0b101#3)
      (h7 : funct7Of w = 0b0000000#7) :
      DecodeCase w (.ok ⟨.w32, .srl ⟨rdOf w⟩ ⟨rs1Of w⟩ ⟨rs2Of w⟩⟩)
  | sra (h : opcodeOf w = 0b0110011#7) (h3 : funct3Of w = 0b101#3)
      (h7 : funct7Of w = 0b0100000#7) :
      DecodeCase w (.ok ⟨.w32, .sra ⟨rdOf w⟩ ⟨rs1Of w⟩ ⟨rs2Of w⟩⟩)
  | or (h : opcodeOf w = 0b0110011#7) (h3 : funct3Of w = 0b110#3)
      (h7 : funct7Of w = 0b0000000#7) :
      DecodeCase w (.ok ⟨.w32, .or ⟨rdOf w⟩ ⟨rs1Of w⟩ ⟨rs2Of w⟩⟩)
  | and (h : opcodeOf w = 0b0110011#7) (h3 : funct3Of w = 0b111#3)
      (h7 : funct7Of w = 0b0000000#7) :
      DecodeCase w (.ok ⟨.w32, .and ⟨rdOf w⟩ ⟨rs1Of w⟩ ⟨rs2Of w⟩⟩)
  | fence (h : opcodeOf w = 0b0001111#7) (h3 : funct3Of w = 0b000#3) :
      DecodeCase w (.ok ⟨.w32, .fence⟩)
  | fenceI (h : opcodeOf w = 0b0001111#7) (h3 : funct3Of w = 0b001#3) :
      DecodeCase w (.ok ⟨.w32, .fenceI⟩)
  | ecall (h : w = ecallWord) :
      DecodeCase w (.ok ⟨.w32, .ecall⟩)
  | ebreak (h : w = ebreakWord) :
      DecodeCase w (.ok ⟨.w32, .ebreak⟩)
  | mret (h : w = mretWord) :
      DecodeCase w (.ok ⟨.w32, .mret⟩)
  | csrrw (h : opcodeOf w = 0b1110011#7) (h3 : funct3Of w = 0b001#3) :
      DecodeCase w (.ok ⟨.w32, .csrrw ⟨rdOf w⟩ ⟨rs1Of w⟩ (csrOf w)⟩)
  | csrrs (h : opcodeOf w = 0b1110011#7) (h3 : funct3Of w = 0b010#3) :
      DecodeCase w (.ok ⟨.w32, .csrrs ⟨rdOf w⟩ ⟨rs1Of w⟩ (csrOf w)⟩)
  | csrrc (h : opcodeOf w = 0b1110011#7) (h3 : funct3Of w = 0b011#3) :
      DecodeCase w (.ok ⟨.w32, .csrrc ⟨rdOf w⟩ ⟨rs1Of w⟩ (csrOf w)⟩)
  | csrrwi (h : opcodeOf w = 0b1110011#7) (h3 : funct3Of w = 0b101#3) :
      DecodeCase w (.ok ⟨.w32, .csrrwi ⟨rdOf w⟩ (zimmOf w) (csrOf w)⟩)
  | csrrsi (h : opcodeOf w = 0b1110011#7) (h3 : funct3Of w = 0b110#3) :
      DecodeCase w (.ok ⟨.w32, .csrrsi ⟨rdOf w⟩ (zimmOf w) (csrOf w)⟩)
  | csrrci (h : opcodeOf w = 0b1110011#7) (h3 : funct3Of w = 0b111#3) :
      DecodeCase w (.ok ⟨.w32, .csrrci ⟨rdOf w⟩ (zimmOf w) (csrOf w)⟩)

/-- A marker word is a SYSTEM word. -/
theorem isMarkerWord_eq_false {w : Word} (h : opcodeOf w ≠ 0b1110011#7) :
    Machine.isMarkerWord w = false := by
  simp only [Machine.isMarkerWord, Bool.or_eq_false_iff, beq_eq_false_iff_ne]
  refine ⟨⟨?_, ?_⟩, ?_⟩ <;> (rintro rfl; exact h (by decide))

theorem decodeCase_lui {w : Word} (h : opcodeOf w = 0b0110111#7) :
    DecodeCase w (handler .lui w) := by
  have e : handler .lui w = .ok ⟨.w32, .lui ⟨rdOf w⟩ (immU w)⟩ := by
    simp [handler, decodeLui]
  rw [e]
  exact .lui h

theorem decodeCase_auipc {w : Word} (h : opcodeOf w = 0b0010111#7) :
    DecodeCase w (handler .auipc w) := by
  have e : handler .auipc w = .ok ⟨.w32, .auipc ⟨rdOf w⟩ (immU w)⟩ := by
    simp [handler, decodeAuipc]
  rw [e]
  exact .auipc h

theorem decodeCase_jal {w : Word} (h : opcodeOf w = 0b1101111#7) :
    DecodeCase w (handler .jal w) := by
  have e : handler .jal w = .ok ⟨.w32, .jal ⟨rdOf w⟩ (immJ w)⟩ := by
    simp [handler, decodeJal]
  rw [e]
  exact .jal h

theorem decodeCase_jalr {w : Word} (h : opcodeOf w = 0b1100111#7) :
    DecodeCase w (handler .jalr w) := by
  have hc : classOf (opcodeOf w) = some .jalr := by rw [h]; rfl
  have hm : Machine.isMarkerWord w = false := isMarkerWord_eq_false (by rw [h]; decide)
  rcases funct3_cases (funct3Of w) with h3 | h3 | h3 | h3 | h3 | h3 | h3 | h3
  · rw [show handler .jalr w = .ok ⟨.w32, .jalr ⟨rdOf w⟩ ⟨rs1Of w⟩ (immI w)⟩ by
      simp [handler, decodeJalr, h3]]
    exact .jalr h h3
  · rw [show handler .jalr w = .err (.invalidFunct3 (opcodeOf w) (funct3Of w)) by
      simp [handler, decodeJalr, h3]]
    exact .funct3 _ hc hm (by rw [h3]; rfl)
  · rw [show handler .jalr w = .err (.invalidFunct3 (opcodeOf w) (funct3Of w)) by
      simp [handler, decodeJalr, h3]]
    exact .funct3 _ hc hm (by rw [h3]; rfl)
  · rw [show handler .jalr w = .err (.invalidFunct3 (opcodeOf w) (funct3Of w)) by
      simp [handler, decodeJalr, h3]]
    exact .funct3 _ hc hm (by rw [h3]; rfl)
  · rw [show handler .jalr w = .err (.invalidFunct3 (opcodeOf w) (funct3Of w)) by
      simp [handler, decodeJalr, h3]]
    exact .funct3 _ hc hm (by rw [h3]; rfl)
  · rw [show handler .jalr w = .err (.invalidFunct3 (opcodeOf w) (funct3Of w)) by
      simp [handler, decodeJalr, h3]]
    exact .funct3 _ hc hm (by rw [h3]; rfl)
  · rw [show handler .jalr w = .err (.invalidFunct3 (opcodeOf w) (funct3Of w)) by
      simp [handler, decodeJalr, h3]]
    exact .funct3 _ hc hm (by rw [h3]; rfl)
  · rw [show handler .jalr w = .err (.invalidFunct3 (opcodeOf w) (funct3Of w)) by
      simp [handler, decodeJalr, h3]]
    exact .funct3 _ hc hm (by rw [h3]; rfl)

theorem decodeCase_branch {w : Word} (h : opcodeOf w = 0b1100011#7) :
    DecodeCase w (handler .branch w) := by
  have hc : classOf (opcodeOf w) = some .branch := by rw [h]; rfl
  have hm : Machine.isMarkerWord w = false := isMarkerWord_eq_false (by rw [h]; decide)
  rcases funct3_cases (funct3Of w) with h3 | h3 | h3 | h3 | h3 | h3 | h3 | h3
  · rw [show handler .branch w = .ok ⟨.w32, .beq ⟨rs1Of w⟩ ⟨rs2Of w⟩ (immB w)⟩ by
      simp [handler, decodeBranch, branchVariant, h3]]
    exact .beq h h3
  · rw [show handler .branch w = .ok ⟨.w32, .bne ⟨rs1Of w⟩ ⟨rs2Of w⟩ (immB w)⟩ by
      simp [handler, decodeBranch, branchVariant, h3]]
    exact .bne h h3
  · rw [show handler .branch w = .err (.invalidFunct3 (opcodeOf w) (funct3Of w)) by
      simp [handler, decodeBranch, branchVariant, h3]]
    exact .funct3 _ hc hm (by rw [h3]; rfl)
  · rw [show handler .branch w = .err (.invalidFunct3 (opcodeOf w) (funct3Of w)) by
      simp [handler, decodeBranch, branchVariant, h3]]
    exact .funct3 _ hc hm (by rw [h3]; rfl)
  · rw [show handler .branch w = .ok ⟨.w32, .blt ⟨rs1Of w⟩ ⟨rs2Of w⟩ (immB w)⟩ by
      simp [handler, decodeBranch, branchVariant, h3]]
    exact .blt h h3
  · rw [show handler .branch w = .ok ⟨.w32, .bge ⟨rs1Of w⟩ ⟨rs2Of w⟩ (immB w)⟩ by
      simp [handler, decodeBranch, branchVariant, h3]]
    exact .bge h h3
  · rw [show handler .branch w = .ok ⟨.w32, .bltu ⟨rs1Of w⟩ ⟨rs2Of w⟩ (immB w)⟩ by
      simp [handler, decodeBranch, branchVariant, h3]]
    exact .bltu h h3
  · rw [show handler .branch w = .ok ⟨.w32, .bgeu ⟨rs1Of w⟩ ⟨rs2Of w⟩ (immB w)⟩ by
      simp [handler, decodeBranch, branchVariant, h3]]
    exact .bgeu h h3

theorem decodeCase_load {w : Word} (h : opcodeOf w = 0b0000011#7) :
    DecodeCase w (handler .load w) := by
  have hc : classOf (opcodeOf w) = some .load := by rw [h]; rfl
  have hm : Machine.isMarkerWord w = false := isMarkerWord_eq_false (by rw [h]; decide)
  rcases funct3_cases (funct3Of w) with h3 | h3 | h3 | h3 | h3 | h3 | h3 | h3
  · rw [show handler .load w = .ok ⟨.w32, .lb ⟨rdOf w⟩ ⟨rs1Of w⟩ (immL w)⟩ by
      simp [handler, decodeLoad, loadVariant, h3]]
    exact .lb h h3
  · rw [show handler .load w = .ok ⟨.w32, .lh ⟨rdOf w⟩ ⟨rs1Of w⟩ (immL w)⟩ by
      simp [handler, decodeLoad, loadVariant, h3]]
    exact .lh h h3
  · rw [show handler .load w = .ok ⟨.w32, .lw ⟨rdOf w⟩ ⟨rs1Of w⟩ (immL w)⟩ by
      simp [handler, decodeLoad, loadVariant, h3]]
    exact .lw h h3
  · rw [show handler .load w = .err (.invalidFunct3 (opcodeOf w) (funct3Of w)) by
      simp [handler, decodeLoad, loadVariant, h3]]
    exact .funct3 _ hc hm (by rw [h3]; rfl)
  · rw [show handler .load w = .ok ⟨.w32, .lbu ⟨rdOf w⟩ ⟨rs1Of w⟩ (immL w)⟩ by
      simp [handler, decodeLoad, loadVariant, h3]]
    exact .lbu h h3
  · rw [show handler .load w = .ok ⟨.w32, .lhu ⟨rdOf w⟩ ⟨rs1Of w⟩ (immL w)⟩ by
      simp [handler, decodeLoad, loadVariant, h3]]
    exact .lhu h h3
  · rw [show handler .load w = .err (.invalidFunct3 (opcodeOf w) (funct3Of w)) by
      simp [handler, decodeLoad, loadVariant, h3]]
    exact .funct3 _ hc hm (by rw [h3]; rfl)
  · rw [show handler .load w = .err (.invalidFunct3 (opcodeOf w) (funct3Of w)) by
      simp [handler, decodeLoad, loadVariant, h3]]
    exact .funct3 _ hc hm (by rw [h3]; rfl)

theorem decodeCase_store {w : Word} (h : opcodeOf w = 0b0100011#7) :
    DecodeCase w (handler .store w) := by
  have hc : classOf (opcodeOf w) = some .store := by rw [h]; rfl
  have hm : Machine.isMarkerWord w = false := isMarkerWord_eq_false (by rw [h]; decide)
  rcases funct3_cases (funct3Of w) with h3 | h3 | h3 | h3 | h3 | h3 | h3 | h3
  · rw [show handler .store w = .ok ⟨.w32, .sb ⟨rs1Of w⟩ ⟨rs2Of w⟩ (immS w)⟩ by
      simp [handler, decodeStore, storeVariant, h3]]
    exact .sb h h3
  · rw [show handler .store w = .ok ⟨.w32, .sh ⟨rs1Of w⟩ ⟨rs2Of w⟩ (immS w)⟩ by
      simp [handler, decodeStore, storeVariant, h3]]
    exact .sh h h3
  · rw [show handler .store w = .ok ⟨.w32, .sw ⟨rs1Of w⟩ ⟨rs2Of w⟩ (immS w)⟩ by
      simp [handler, decodeStore, storeVariant, h3]]
    exact .sw h h3
  · rw [show handler .store w = .err (.invalidFunct3 (opcodeOf w) (funct3Of w)) by
      simp [handler, decodeStore, storeVariant, h3]]
    exact .funct3 _ hc hm (by rw [h3]; rfl)
  · rw [show handler .store w = .err (.invalidFunct3 (opcodeOf w) (funct3Of w)) by
      simp [handler, decodeStore, storeVariant, h3]]
    exact .funct3 _ hc hm (by rw [h3]; rfl)
  · rw [show handler .store w = .err (.invalidFunct3 (opcodeOf w) (funct3Of w)) by
      simp [handler, decodeStore, storeVariant, h3]]
    exact .funct3 _ hc hm (by rw [h3]; rfl)
  · rw [show handler .store w = .err (.invalidFunct3 (opcodeOf w) (funct3Of w)) by
      simp [handler, decodeStore, storeVariant, h3]]
    exact .funct3 _ hc hm (by rw [h3]; rfl)
  · rw [show handler .store w = .err (.invalidFunct3 (opcodeOf w) (funct3Of w)) by
      simp [handler, decodeStore, storeVariant, h3]]
    exact .funct3 _ hc hm (by rw [h3]; rfl)

theorem decodeCase_opImm {w : Word} (h : opcodeOf w = 0b0010011#7) :
    DecodeCase w (handler .opImm w) := by
  have hc : classOf (opcodeOf w) = some .opImm := by rw [h]; rfl
  have hm : Machine.isMarkerWord w = false := isMarkerWord_eq_false (by rw [h]; decide)
  rcases funct3_cases (funct3Of w) with h3 | h3 | h3 | h3 | h3 | h3 | h3 | h3
  · rw [show handler .opImm w = .ok ⟨.w32, .addi ⟨rdOf w⟩ ⟨rs1Of w⟩ (immI w)⟩ by
      simp [handler, decodeOpImm, opImmVariant, h3]]
    exact .addi h h3
  · by_cases h70 : funct7Of w = 0b0000000#7
    · rw [show handler .opImm w = .ok ⟨.w32, .slli ⟨rdOf w⟩ ⟨rs1Of w⟩ (shamtOf w)⟩ by
        simp [handler, decodeOpImm, opImmVariant, shiftVariant, h3, h70]]
      exact .slli h h3 h70
    rw [show handler .opImm w = .err (.invalidFunct7 (funct3Of w) (funct7Of w)) by
      simp [handler, decodeOpImm, opImmVariant, shiftVariant, h3, h70]]
    exact .funct7 _ hc hm (by rw [h3]; rfl) (by simp [Machine.funct7Raises, h3, h70])
  · rw [show handler .opImm w = .ok ⟨.w32, .slti ⟨rdOf w⟩ ⟨rs1Of w⟩ (immI w)⟩ by
      simp [handler, decodeOpImm, opImmVariant, h3]]
    exact .slti h h3
  · rw [show handler .opImm w = .ok ⟨.w32, .sltiu ⟨rdOf w⟩ ⟨rs1Of w⟩ (immI w)⟩ by
      simp [handler, decodeOpImm, opImmVariant, h3]]
    exact .sltiu h h3
  · rw [show handler .opImm w = .ok ⟨.w32, .xori ⟨rdOf w⟩ ⟨rs1Of w⟩ (immI w)⟩ by
      simp [handler, decodeOpImm, opImmVariant, h3]]
    exact .xori h h3
  · by_cases h70 : funct7Of w = 0b0000000#7
    · rw [show handler .opImm w = .ok ⟨.w32, .srli ⟨rdOf w⟩ ⟨rs1Of w⟩ (shamtOf w)⟩ by
        simp [handler, decodeOpImm, opImmVariant, shiftVariant, h3, h70]]
      exact .srli h h3 h70
    by_cases h71 : funct7Of w = 0b0100000#7
    · rw [show handler .opImm w = .ok ⟨.w32, .srai ⟨rdOf w⟩ ⟨rs1Of w⟩ (shamtOf w)⟩ by
        simp [handler, decodeOpImm, opImmVariant, shiftVariant, h3, h71]]
      exact .srai h h3 h71
    rw [show handler .opImm w = .err (.invalidFunct7 (funct3Of w) (funct7Of w)) by
      simp [handler, decodeOpImm, opImmVariant, shiftVariant, h3, h70, h71]]
    exact .funct7 _ hc hm (by rw [h3]; rfl) (by simp [Machine.funct7Raises, h3, h70, h71])
  · rw [show handler .opImm w = .ok ⟨.w32, .ori ⟨rdOf w⟩ ⟨rs1Of w⟩ (immI w)⟩ by
      simp [handler, decodeOpImm, opImmVariant, h3]]
    exact .ori h h3
  · rw [show handler .opImm w = .ok ⟨.w32, .andi ⟨rdOf w⟩ ⟨rs1Of w⟩ (immI w)⟩ by
      simp [handler, decodeOpImm, opImmVariant, h3]]
    exact .andi h h3

theorem decodeCase_op {w : Word} (h : opcodeOf w = 0b0110011#7) :
    DecodeCase w (handler .op w) := by
  have hc : classOf (opcodeOf w) = some .op := by rw [h]; rfl
  have hm : Machine.isMarkerWord w = false := isMarkerWord_eq_false (by rw [h]; decide)
  rcases funct3_cases (funct3Of w) with h3 | h3 | h3 | h3 | h3 | h3 | h3 | h3
  · by_cases h70 : funct7Of w = 0b0000000#7
    · rw [show handler .op w = .ok ⟨.w32, .add ⟨rdOf w⟩ ⟨rs1Of w⟩ ⟨rs2Of w⟩⟩ by
        simp [handler, decodeOp, opVariant, h3, h70]]
      exact .add h h3 h70
    by_cases h71 : funct7Of w = 0b0100000#7
    · rw [show handler .op w = .ok ⟨.w32, .sub ⟨rdOf w⟩ ⟨rs1Of w⟩ ⟨rs2Of w⟩⟩ by
        simp [handler, decodeOp, opVariant, h3, h71]]
      exact .sub h h3 h71
    rw [show handler .op w = .err (.invalidFunct7 (funct3Of w) (funct7Of w)) by
      simp [handler, decodeOp, opVariant, h3, h70, h71]]
    exact .funct7 _ hc hm (by rw [h3]; rfl) (by simp [Machine.funct7Raises, h3, h70, h71])
  · by_cases h70 : funct7Of w = 0b0000000#7
    · rw [show handler .op w = .ok ⟨.w32, .sll ⟨rdOf w⟩ ⟨rs1Of w⟩ ⟨rs2Of w⟩⟩ by
        simp [handler, decodeOp, opVariant, h3, h70]]
      exact .sll h h3 h70
    rw [show handler .op w = .err (.invalidFunct7 (funct3Of w) (funct7Of w)) by
      simp [handler, decodeOp, opVariant, h3, h70]]
    exact .funct7 _ hc hm (by rw [h3]; rfl) (by simp [Machine.funct7Raises, h3, h70])
  · by_cases h70 : funct7Of w = 0b0000000#7
    · rw [show handler .op w = .ok ⟨.w32, .slt ⟨rdOf w⟩ ⟨rs1Of w⟩ ⟨rs2Of w⟩⟩ by
        simp [handler, decodeOp, opVariant, h3, h70]]
      exact .slt h h3 h70
    rw [show handler .op w = .err (.invalidFunct7 (funct3Of w) (funct7Of w)) by
      simp [handler, decodeOp, opVariant, h3, h70]]
    exact .funct7 _ hc hm (by rw [h3]; rfl) (by simp [Machine.funct7Raises, h3, h70])
  · by_cases h70 : funct7Of w = 0b0000000#7
    · rw [show handler .op w = .ok ⟨.w32, .sltu ⟨rdOf w⟩ ⟨rs1Of w⟩ ⟨rs2Of w⟩⟩ by
        simp [handler, decodeOp, opVariant, h3, h70]]
      exact .sltu h h3 h70
    rw [show handler .op w = .err (.invalidFunct7 (funct3Of w) (funct7Of w)) by
      simp [handler, decodeOp, opVariant, h3, h70]]
    exact .funct7 _ hc hm (by rw [h3]; rfl) (by simp [Machine.funct7Raises, h3, h70])
  · by_cases h70 : funct7Of w = 0b0000000#7
    · rw [show handler .op w = .ok ⟨.w32, .xor ⟨rdOf w⟩ ⟨rs1Of w⟩ ⟨rs2Of w⟩⟩ by
        simp [handler, decodeOp, opVariant, h3, h70]]
      exact .xor h h3 h70
    rw [show handler .op w = .err (.invalidFunct7 (funct3Of w) (funct7Of w)) by
      simp [handler, decodeOp, opVariant, h3, h70]]
    exact .funct7 _ hc hm (by rw [h3]; rfl) (by simp [Machine.funct7Raises, h3, h70])
  · by_cases h70 : funct7Of w = 0b0000000#7
    · rw [show handler .op w = .ok ⟨.w32, .srl ⟨rdOf w⟩ ⟨rs1Of w⟩ ⟨rs2Of w⟩⟩ by
        simp [handler, decodeOp, opVariant, h3, h70]]
      exact .srl h h3 h70
    by_cases h71 : funct7Of w = 0b0100000#7
    · rw [show handler .op w = .ok ⟨.w32, .sra ⟨rdOf w⟩ ⟨rs1Of w⟩ ⟨rs2Of w⟩⟩ by
        simp [handler, decodeOp, opVariant, h3, h71]]
      exact .sra h h3 h71
    rw [show handler .op w = .err (.invalidFunct7 (funct3Of w) (funct7Of w)) by
      simp [handler, decodeOp, opVariant, h3, h70, h71]]
    exact .funct7 _ hc hm (by rw [h3]; rfl) (by simp [Machine.funct7Raises, h3, h70, h71])
  · by_cases h70 : funct7Of w = 0b0000000#7
    · rw [show handler .op w = .ok ⟨.w32, .or ⟨rdOf w⟩ ⟨rs1Of w⟩ ⟨rs2Of w⟩⟩ by
        simp [handler, decodeOp, opVariant, h3, h70]]
      exact .or h h3 h70
    rw [show handler .op w = .err (.invalidFunct7 (funct3Of w) (funct7Of w)) by
      simp [handler, decodeOp, opVariant, h3, h70]]
    exact .funct7 _ hc hm (by rw [h3]; rfl) (by simp [Machine.funct7Raises, h3, h70])
  · by_cases h70 : funct7Of w = 0b0000000#7
    · rw [show handler .op w = .ok ⟨.w32, .and ⟨rdOf w⟩ ⟨rs1Of w⟩ ⟨rs2Of w⟩⟩ by
        simp [handler, decodeOp, opVariant, h3, h70]]
      exact .and h h3 h70
    rw [show handler .op w = .err (.invalidFunct7 (funct3Of w) (funct7Of w)) by
      simp [handler, decodeOp, opVariant, h3, h70]]
    exact .funct7 _ hc hm (by rw [h3]; rfl) (by simp [Machine.funct7Raises, h3, h70])

theorem decodeCase_miscMem {w : Word} (h : opcodeOf w = 0b0001111#7) :
    DecodeCase w (handler .miscMem w) := by
  have hc : classOf (opcodeOf w) = some .miscMem := by rw [h]; rfl
  have hm : Machine.isMarkerWord w = false := isMarkerWord_eq_false (by rw [h]; decide)
  rcases funct3_cases (funct3Of w) with h3 | h3 | h3 | h3 | h3 | h3 | h3 | h3
  · rw [show handler .miscMem w = .ok ⟨.w32, .fence⟩ by
      simp [handler, decodeMiscMem, h3]]
    exact .fence h h3
  · rw [show handler .miscMem w = .ok ⟨.w32, .fenceI⟩ by
      simp [handler, decodeMiscMem, h3]]
    exact .fenceI h h3
  · rw [show handler .miscMem w = .err (.invalidFunct3 (opcodeOf w) (funct3Of w)) by
      simp [handler, decodeMiscMem, h3]]
    exact .funct3 _ hc hm (by rw [h3]; rfl)
  · rw [show handler .miscMem w = .err (.invalidFunct3 (opcodeOf w) (funct3Of w)) by
      simp [handler, decodeMiscMem, h3]]
    exact .funct3 _ hc hm (by rw [h3]; rfl)
  · rw [show handler .miscMem w = .err (.invalidFunct3 (opcodeOf w) (funct3Of w)) by
      simp [handler, decodeMiscMem, h3]]
    exact .funct3 _ hc hm (by rw [h3]; rfl)
  · rw [show handler .miscMem w = .err (.invalidFunct3 (opcodeOf w) (funct3Of w)) by
      simp [handler, decodeMiscMem, h3]]
    exact .funct3 _ hc hm (by rw [h3]; rfl)
  · rw [show handler .miscMem w = .err (.invalidFunct3 (opcodeOf w) (funct3Of w)) by
      simp [handler, decodeMiscMem, h3]]
    exact .funct3 _ hc hm (by rw [h3]; rfl)
  · rw [show handler .miscMem w = .err (.invalidFunct3 (opcodeOf w) (funct3Of w)) by
      simp [handler, decodeMiscMem, h3]]
    exact .funct3 _ hc hm (by rw [h3]; rfl)

theorem decodeCase_system {w : Word} (h : opcodeOf w = 0b1110011#7) :
    DecodeCase w (handler .system w) := by
  have hc : classOf (opcodeOf w) = some .system := by rw [h]; rfl
  by_cases h1 : w = mretWord
  · rw [show handler .system w = .ok ⟨.w32, .mret⟩ from if_pos h1]
    exact .mret h1
  by_cases h2 : w = ecallWord
  · rw [show handler .system w = .ok ⟨.w32, .ecall⟩ from (if_neg h1).trans (if_pos h2)]
    exact .ecall h2
  by_cases h4 : w = ebreakWord
  · rw [show handler .system w = .ok ⟨.w32, .ebreak⟩ from
      (if_neg h1).trans ((if_neg h2).trans (if_pos h4))]
    exact .ebreak h4
  have hm : Machine.isMarkerWord w = false := by
    simpa [Machine.isMarkerWord, mretWord, ecallWord, ebreakWord] using And.intro (And.intro h1 h2) h4
  rcases funct3_cases (funct3Of w) with h3 | h3 | h3 | h3 | h3 | h3 | h3 | h3
  · rw [show handler .system w = .err (.invalidFunct3 (opcodeOf w) (funct3Of w)) by
      simp [handler, decodeSystem, csrRegVariant, csrImmVariant, h3, h1, h2, h4]]
    exact .funct3 _ hc hm (by rw [h3]; rfl)
  · rw [show handler .system w = .ok ⟨.w32, .csrrw ⟨rdOf w⟩ ⟨rs1Of w⟩ (csrOf w)⟩ by
      simp [handler, decodeSystem, csrRegVariant, h3, h1, h2, h4]]
    exact .csrrw h h3
  · rw [show handler .system w = .ok ⟨.w32, .csrrs ⟨rdOf w⟩ ⟨rs1Of w⟩ (csrOf w)⟩ by
      simp [handler, decodeSystem, csrRegVariant, h3, h1, h2, h4]]
    exact .csrrs h h3
  · rw [show handler .system w = .ok ⟨.w32, .csrrc ⟨rdOf w⟩ ⟨rs1Of w⟩ (csrOf w)⟩ by
      simp [handler, decodeSystem, csrRegVariant, h3, h1, h2, h4]]
    exact .csrrc h h3
  · rw [show handler .system w = .err (.invalidFunct3 (opcodeOf w) (funct3Of w)) by
      simp [handler, decodeSystem, csrRegVariant, csrImmVariant, h3, h1, h2, h4]]
    exact .funct3 _ hc hm (by rw [h3]; rfl)
  · rw [show handler .system w = .ok ⟨.w32, .csrrwi ⟨rdOf w⟩ (zimmOf w) (csrOf w)⟩ by
      simp [handler, decodeSystem, csrRegVariant, csrImmVariant, h3, h1, h2, h4]]
    exact .csrrwi h h3
  · rw [show handler .system w = .ok ⟨.w32, .csrrsi ⟨rdOf w⟩ (zimmOf w) (csrOf w)⟩ by
      simp [handler, decodeSystem, csrRegVariant, csrImmVariant, h3, h1, h2, h4]]
    exact .csrrsi h h3
  · rw [show handler .system w = .ok ⟨.w32, .csrrci ⟨rdOf w⟩ (zimmOf w) (csrOf w)⟩ by
      simp [handler, decodeSystem, csrRegVariant, csrImmVariant, h3, h1, h2, h4]]
    exact .csrrci h h3

/-- Everything `decode` can answer. -/
theorem decode_cases (w : Word) : DecodeCase w (decode w) := by
  unfold decode
  cases hc : classOf (opcodeOf w) with
  | none => exact .unrecognized hc
  | some c =>
    have h := classOf_eq_some hc
    cases c with
    | lui => exact decodeCase_lui h
    | auipc => exact decodeCase_auipc h
    | jal => exact decodeCase_jal h
    | jalr => exact decodeCase_jalr h
    | branch => exact decodeCase_branch h
    | load => exact decodeCase_load h
    | store => exact decodeCase_store h
    | opImm => exact decodeCase_opImm h
    | op => exact decodeCase_op h
    | miscMem => exact decodeCase_miscMem h
    | system => exact decodeCase_system h

end Sys2Proof
end

