-- ==== Sys2Proof/Laws/State.lean ====
section
/-! SUPPORT. One lemma per field per update of State, and what the small operations over the ports
answer. Later proofs cite these and do not unfold a record update. -/

namespace Sys2Proof.Machine

section Present
variable (w : Word) (s : State)

@[simp] theorem present_ports : (s.present w).ports = s.ports := rfl
@[simp] theorem present_imms : (s.present w).imms = s.imms := rfl
@[simp] theorem present_resolver : (s.present w).resolver = s.resolver := rfl
@[simp] theorem present_resolverRaw :
    (s.present w).inputs.resolverRaw = s.inputs.resolverRaw := rfl
@[simp] theorem present_resolverReg :
    (s.present w).inputs.resolverReg = s.inputs.resolverReg := rfl
@[simp] theorem present_resolverMask :
    (s.present w).inputs.resolverMask = s.inputs.resolverMask := rfl
@[simp] theorem present_front : (s.present w).inputs.front = s.inputs.front.showing w := rfl

end Present

section Settle
variable (s : State)

@[simp] theorem settle_inputs : s.settleSubBlocks.inputs = s.inputs := rfl
@[simp] theorem settle_ports : s.settleSubBlocks.ports = s.ports := rfl
@[simp] theorem settle_imms : s.settleSubBlocks.imms = reconstruct s.word := rfl
@[simp] theorem settle_resolver : s.settleSubBlocks.resolver = resolverOut s.inputs := rfl
@[simp] theorem settle_word : s.settleSubBlocks.word = s.word := rfl

end Settle

section Ports
variable (s : State) (p : Ports)

@[simp] theorem setPorts_inputs : ({ s with ports := p } : State).inputs = s.inputs := rfl
@[simp] theorem setPorts_ports : ({ s with ports := p } : State).ports = p := rfl
@[simp] theorem setPorts_imms : ({ s with ports := p } : State).imms = s.imms := rfl
@[simp] theorem setPorts_resolver : ({ s with ports := p } : State).resolver = s.resolver := rfl
@[simp] theorem setPorts_word : ({ s with ports := p } : State).word = s.word := rfl

end Ports

/-- All `emit` can do: it answers a next state in which only the ports differ. -/
theorem emit_next {t : BitVec 6} {o : OperandPorts} {s s' : State} (h : emit t o s = .next s') :
    s' = { s with ports := okPorts t o } := by
  simpa [emit] using h.symm

/-- All `raise` can do: it answers a next state in which only the ports differ. -/
theorem raise_next {e : DecodeError} {s s' : State} (h : raise e s = .next s') :
    s' = { s with ports := errPorts e } := by
  simpa [raise] using h.symm

/-- What is shown on a front is the word the core sees. -/
@[simp] theorem toWord_showing (w : Word) (f : Front) : (f.showing w).toWord = w := by
  cases f with
  | word _ => rfl
  | bytes _ _ _ _ => exact assemble_lanes w

@[simp] theorem present_word (w : Word) (s : State) : (s.present w).word = w :=
  toWord_showing w s.inputs.front

end Sys2Proof.Machine
end

