-- ==== Sys2Proof/Laws/Exec.lean ====
section
/-! SUPPORT. What the meanings do, said once: each drives the bundle R35 gives its variant and
changes nothing else. -/

namespace Sys2Proof.Machine

/-- Zero-extending the LOAD container is putting 16 zeros above it. -/
theorem setWidth_eq_zeros_append (v : BitVec 16) : v.setWidth 32 = (0#16 ++ v : BitVec 32) := by
  apply BitVec.eq_of_toNat_eq
  rw [BitVec.toNat_setWidth, BitVec.toNat_append]
  have := v.isLt
  simp; omega

/-- Every meaning answers a next state whose ports are the variant's bundle; it is the one inversion
of `exec`. -/
theorem exec_eq (i : Instr) (s : State) :
    exec i s = .next { s with ports := bundle (.ok ⟨.w32, i⟩) } := by
  cases i
  case lb | lh | lw | lbu | lhu =>
    all_goals
      simp only [exec, execLb, execLh, execLw, execLbu, execLhu, emit, operandsLoad,
        setWidth_eq_zeros_append]
      rfl
  all_goals rfl

/-- Every error answers a next state whose ports are the error's bundle. -/
theorem raise_eq (e : DecodeError) (s : State) :
    raise e s = .next { s with ports := bundle (.err e) } := rfl

/-- The LOAD container on the imm port. -/
theorem zeros_append_imm16 (v : BitVec 16) :
    (0#16 ++ v : BitVec 32).toNat < 65536 ∧ (0#16 ++ v : BitVec 32).setWidth 16 = v := by
  rw [← setWidth_eq_zeros_append]
  have := v.isLt
  exact ⟨by simp; omega, by simp⟩

/-- The bundle of a variant whose fields are in range is legal. -/
theorem portsLegal_bundle_ok {i : Instr} (h : i.wellFormed = true) :
    portsLegal (bundle (.ok ⟨.w32, i⟩)) = true := by
  cases i
  case lb rd rs1 v | lh rd rs1 v | lw rd rs1 v | lbu rd rs1 v | lhu rd rs1 v =>
    all_goals
      have k := zeros_append_imm16 v
      simp only [Instr.wellFormed] at h
      simp [portsLegal, bundle, okPortsLegal, tagIn, Instr.tag, carriesRd, carriesRs1, carriesRs2,
        carriesShamt, carriesZimm, carriesCsr, immPortOk, portRd, portRs1, portRs2, portShamt,
        portZimm, portCsr, portWidth]
      simp only [portImm]
      exact ⟨decide_eq_true k.1, by rw [k.2]; exact h⟩
  all_goals
    simp only [Instr.wellFormed] at h
    simp [portsLegal, bundle, okPortsLegal, tagIn, Instr.tag, carriesRd, carriesRs1, carriesRs2,
      carriesShamt, carriesZimm, carriesCsr, immPortOk, portRd, portRs1, portRs2, portImm, portShamt,
      portZimm, portCsr, portWidth, h]

end Sys2Proof.Machine
end

