-- ==== Sys2Proof/Laws/Immediates.lean ====
section
/-! SUPPORT. The immediates bit by bit, and the ranges of WellFormed as statements about bits. -/

namespace Sys2Proof

/-- A value that fits in n+1 signed bits repeats its sign bit from position n on. -/
theorem getLsbD_of_toInt_range {v : BitVec 32} {n : Nat} (hn : n ≤ 31)
    (lo : -(2 ^ n : Int) ≤ v.toInt) (hi : v.toInt < 2 ^ n) (i : Nat) (h1 : n ≤ i) (h2 : i < 32) :
    v.getLsbD i = v.getLsbD 31 := by
  have hpow : (2 : Nat) ^ n ≤ 2 ^ i := Nat.pow_le_pow_right (by decide) h1
  have hpow31 : (2 : Nat) ^ n ≤ 2 ^ 31 := Nat.pow_le_pow_right (by decide) hn
  have hlt := v.isLt
  have cast : ((2 ^ n : Nat) : Int) = (2 ^ n : Int) := by push_cast; rfl
  by_cases hs : v.toNat < 2 ^ 31
  · have e := BitVec.toInt_eq_toNat_of_lt (x := v) (by omega)
    have small : v.toNat < 2 ^ n := by omega
    simp only [BitVec.getLsbD]
    rw [Nat.testBit_lt_two_pow (by omega), Nat.testBit_lt_two_pow (by omega)]
  · have e : v.toInt = (v.toNat : Int) - 2 ^ 32 := by
      rw [BitVec.toInt_eq_toNat_cond, if_neg (by omega)]
      rfl
    have small : (~~~v).toNat < 2 ^ n := by
      rw [BitVec.toNat_not]; omega
    have bit : ∀ k, n ≤ k → k < 32 → (~~~v).getLsbD k = false := by
      intro k hk _
      have := Nat.pow_le_pow_right (n := 2) (by decide) hk
      exact Nat.testBit_lt_two_pow (by omega)
    have hi' := bit i h1 h2
    have hs' := bit 31 hn (by decide)
    rw [BitVec.getLsbD_not] at hi' hs'
    simp_all

/-- A bit pattern that repeats its sign bit from position n on is in the signed range. -/
theorem toInt_range_of_getLsbD {v : BitVec 32} {n : Nat} (hn : n ≤ 31)
    (h : ∀ i, n ≤ i → i < 32 → v.getLsbD i = v.getLsbD 31) :
    -(2 ^ n : Int) ≤ v.toInt ∧ v.toInt < 2 ^ n := by
  have cast : ((2 ^ n : Nat) : Int) = (2 ^ n : Int) := by push_cast; rfl
  have hlt := v.isLt
  have hpow31 : (2 : Nat) ^ n ≤ 2 ^ 31 := Nat.pow_le_pow_right (by decide) hn
  cases hm : v.getLsbD 31 with
  | false =>
    have small : v.toNat < 2 ^ n := by
      apply Nat.lt_pow_two_of_testBit
      intro i hi
      by_cases h2 : i < 32
      · exact (h i hi h2).trans hm
      · exact BitVec.getLsbD_of_ge v i (by omega)
    have e := BitVec.toInt_eq_toNat_of_lt (x := v) (by omega)
    omega
  | true =>
    have small : (~~~v).toNat < 2 ^ n := by
      apply Nat.lt_pow_two_of_testBit
      intro i hi
      by_cases h2 : i < 32
      · have : (~~~v).getLsbD i = false := by
          rw [BitVec.getLsbD_not, h i hi h2, hm]; simp
        exact this
      · exact BitVec.getLsbD_of_ge (~~~v) i (by omega)
    rw [BitVec.toNat_not] at small
    have e : v.toInt = (v.toNat : Int) - 2 ^ 32 := by
      rw [BitVec.toInt_eq_toNat_cond, if_neg (by omega)]
      rfl
    omega

theorem toNat_mod_two (v : BitVec 32) : v.toNat % 2 = 0 ↔ v.getLsbD 0 = false := by
  simp [BitVec.getLsbD, Nat.testBit_zero]

/-- imm_I and imm_S by bits. -/
theorem imm12Ok_iff (v : BitVec 32) :
    imm12Ok v = true ↔ ∀ i, 11 ≤ i → i < 32 → v.getLsbD i = v.getLsbD 31 := by
  constructor
  · intro h
    simp only [imm12Ok, Bool.and_eq_true, decide_eq_true_eq] at h
    exact getLsbD_of_toInt_range (by decide) (by omega) (by omega)
  · intro h
    have := toInt_range_of_getLsbD (n := 11) (by decide) h
    simp only [imm12Ok, Bool.and_eq_true, decide_eq_true_eq]
    omega

/-- imm_B by bits. -/
theorem immBOk_iff (v : BitVec 32) : immBOk v = true ↔
    v.getLsbD 0 = false ∧ ∀ i, 12 ≤ i → i < 32 → v.getLsbD i = v.getLsbD 31 := by
  rw [← toNat_mod_two]
  constructor
  · intro h
    simp only [immBOk, Bool.and_eq_true, decide_eq_true_eq, beq_iff_eq] at h
    exact ⟨h.2, getLsbD_of_toInt_range (by decide) (by omega) (by omega)⟩
  · intro h
    have r := toInt_range_of_getLsbD (n := 12) (by decide) h.2
    have e := BitVec.toInt_eq_toNat_cond v
    simp only [immBOk, Bool.and_eq_true, decide_eq_true_eq, beq_iff_eq]
    split at e <;> omega

/-- imm_J by bits. -/
theorem immJOk_iff (v : BitVec 32) : immJOk v = true ↔
    v.getLsbD 0 = false ∧ ∀ i, 20 ≤ i → i < 32 → v.getLsbD i = v.getLsbD 31 := by
  rw [← toNat_mod_two]
  constructor
  · intro h
    simp only [immJOk, Bool.and_eq_true, decide_eq_true_eq, beq_iff_eq] at h
    exact ⟨h.2, getLsbD_of_toInt_range (by decide) (by omega) (by omega)⟩
  · intro h
    have r := toInt_range_of_getLsbD (n := 20) (by decide) h.2
    have e := BitVec.toInt_eq_toNat_cond v
    simp only [immJOk, Bool.and_eq_true, decide_eq_true_eq, beq_iff_eq]
    split at e <;> omega

/-- imm_U by bits. -/
theorem immUOk_iff (v : BitVec 32) : immUOk v = true ↔ ∀ i, i < 12 → v.getLsbD i = false := by
  simp only [immUOk, beq_iff_eq]
  constructor
  · intro h i hi
    have : (v.toNat % 2 ^ 12).testBit i = false := by
      rw [show v.toNat % 2 ^ 12 = 0 from h]; simp
    rw [Nat.testBit_mod_two_pow] at this
    simpa [hi, BitVec.getLsbD] using this
  · intro h
    change v.toNat % 2 ^ 12 = 0
    apply Nat.eq_of_testBit_eq
    intro i
    rw [Nat.testBit_mod_two_pow]
    by_cases hi : i < 12
    · simpa [hi, BitVec.getLsbD] using h i hi
    · simp [hi]

/-- imm_L by bits: it is its own low twelve bits, sign-extended. -/
theorem immLOk_iff (v : BitVec 16) :
    immLOk v = true ↔ v = (v.extractLsb' 0 12).signExtend 16 := by
  have hv : v.toNat < 65536 := v.isLt
  have hx : (v.extractLsb' 0 12).toNat = v.toNat % 4096 := by
    simp [BitVec.extractLsb'_toNat]
  rw [← BitVec.toNat_inj, BitVec.toNat_signExtend]
  have hm : (v.extractLsb' 0 12).msb = decide (2048 ≤ v.toNat % 4096) := by
    rw [BitVec.msb_eq_decide, hx]
  rw [hm, BitVec.toNat_setWidth, hx]
  simp only [immLOk, Bool.or_eq_true, decide_eq_true_eq]
  by_cases h : 2048 ≤ v.toNat % 4096 <;> simp [h] <;> omega

/-! ### Every reconstruction is in the range of its format -/

theorem immI_ok (w : Word) : imm12Ok (immI w) = true := by
  rw [imm12Ok_iff]
  intro i h1 h2
  simp only [immI, BitVec.getLsbD_signExtend, BitVec.getLsbD_extractLsb',
    BitVec.msb_eq_getLsbD_last]
  interval_cases i <;> simp

theorem immS_ok (w : Word) : imm12Ok (immS w) = true := by
  rw [imm12Ok_iff]
  intro i h1 h2
  simp only [immS, BitVec.getLsbD_signExtend, BitVec.getLsbD_append, BitVec.getLsbD_extractLsb',
    BitVec.msb_eq_getLsbD_last]
  interval_cases i <;> simp

theorem immB_ok (w : Word) : immBOk (immB w) = true := by
  rw [immBOk_iff]
  simp only [immB, BitVec.getLsbD_signExtend, BitVec.getLsbD_append, BitVec.getLsbD_extractLsb',
    BitVec.msb_eq_getLsbD_last]
  refine ⟨by simp, fun i h1 h2 => ?_⟩
  interval_cases i <;> simp

theorem immJ_ok (w : Word) : immJOk (immJ w) = true := by
  rw [immJOk_iff]
  simp only [immJ, BitVec.getLsbD_signExtend, BitVec.getLsbD_append, BitVec.getLsbD_extractLsb',
    BitVec.msb_eq_getLsbD_last]
  refine ⟨by simp, fun i h1 h2 => ?_⟩
  interval_cases i <;> simp

theorem immU_ok (w : Word) : immUOk (immU w) = true := by
  rw [immUOk_iff]
  intro i hi
  simp only [immU_cast, BitVec.getLsbD_cast, BitVec.getLsbD_append]
  simp [hi]

theorem immL_ok (w : Word) : immLOk (immL w) = true := by
  rw [immLOk_iff]
  apply BitVec.eq_of_getLsbD_eq
  intro i hi
  simp only [immL, immI, BitVec.getLsbD_setWidth, BitVec.getLsbD_signExtend,
    BitVec.getLsbD_extractLsb', BitVec.msb_eq_getLsbD_last]
  interval_cases i <;> simp

end Sys2Proof
end

