-- ==== Sys2Proof/Laws/RoundTrip.lean ====
section
/-! SUPPORT. A word is its six fields, a recognized opcode goes to its handler, and each immediate's
way through an encoder and back. -/

namespace Sys2Proof

/-- A word is the concatenation of its six fields (the R row of R70). -/
theorem word_eq_fields (w : Word) :
    w = (funct7Of w ++ rs2Of w ++ rs1Of w ++ funct3Of w ++ rdOf w ++ opcodeOf w).cast (by rfl) := by
  apply BitVec.eq_of_getLsbD_eq
  intro i hi
  simp only [funct7Of, rs2Of, rs1Of, funct3Of, rdOf, opcodeOf, BitVec.getLsbD_cast,
    BitVec.getLsbD_append, BitVec.getLsbD_extractLsb']
  interval_cases i <;> simp

/-- Words with equal fields are equal. -/
theorem word_ext {w w' : Word} (ho : opcodeOf w = opcodeOf w') (hd : rdOf w = rdOf w')
    (h3 : funct3Of w = funct3Of w') (h1 : rs1Of w = rs1Of w') (h2 : rs2Of w = rs2Of w')
    (h7 : funct7Of w = funct7Of w') : w = w' := by
  rw [word_eq_fields w, word_eq_fields w', ho, hd, h3, h1, h2, h7]

/-- A recognized opcode goes to the handler of its class. -/
theorem decode_of_code {w : Word} {c : OpcodeClass} (h : opcodeOf w = c.code) :
    decode w = handler c w := by
  simp [decode, h]

/-- A word with a nonzero funct3 is no marker. -/
theorem ne_markers {w : Word} (h : funct3Of w ≠ 0#3) :
    w ≠ mretWord ∧ w ≠ ecallWord ∧ w ≠ ebreakWord := by
  refine ⟨?_, ?_, ?_⟩ <;> rintro rfl <;> exact h (by decide)

/-- The SYSTEM handler on a word that is no marker. -/
theorem decode_system {w : Word} (n : w ≠ mretWord ∧ w ≠ ecallWord ∧ w ≠ ebreakWord)
    (h : opcodeOf w = 0b1110011#7) :
    decode w =
      match csrRegVariant (funct3Of w) with
      | some v => .ok ⟨.w32, v ⟨rdOf w⟩ ⟨rs1Of w⟩ (csrOf w)⟩
      | none =>
        match csrImmVariant (funct3Of w) with
        | some v => .ok ⟨.w32, v ⟨rdOf w⟩ (zimmOf w) (csrOf w)⟩
        | none => .err (.invalidFunct3 (opcodeOf w) (funct3Of w)) := by
  rw [decode_of_code (c := .system) h]
  simp only [handler, decodeSystem, if_neg n.1, if_neg n.2.1, if_neg n.2.2, withReg_eq, emitOk_eq,
    raiseErr_eq]
  all_goals rfl

/-! ### Fields under a mask -/

theorem opcodeOf_and (w m : Word) : opcodeOf (w &&& m) = opcodeOf w &&& opcodeOf m := by
  apply BitVec.eq_of_getLsbD_eq
  intro i hi
  simp [opcodeOf, hi]

theorem funct3Of_and (w m : Word) : funct3Of (w &&& m) = funct3Of w &&& funct3Of m := by
  apply BitVec.eq_of_getLsbD_eq
  intro i hi
  simp [funct3Of, hi]

theorem funct7Of_and (w m : Word) : funct7Of (w &&& m) = funct7Of w &&& funct7Of m := by
  apply BitVec.eq_of_getLsbD_eq
  intro i hi
  simp [funct7Of, hi]

/-! ### Immediates out of an encoder -/

/-- A word's imm_I is its csr field, sign-extended. -/
theorem immI_eq (w : Word) : immI w = (csrOf w).signExtend 32 := rfl

theorem immI_encI {imm : BitVec 32} (h : imm12Ok imm = true) (rs1 f3 rd c) :
    immI (encI (imm.extractLsb' 0 12) rs1 f3 rd c) = imm := by
  have key := (imm12Ok_iff imm).1 h
  have k11 := key 11 (by decide) (by decide)
  rw [immI_eq, csrOf_encI]
  apply BitVec.eq_of_getLsbD_eq
  intro i hi
  simp only [BitVec.getLsbD_signExtend, BitVec.getLsbD_extractLsb', BitVec.msb_eq_getLsbD_last]
  by_cases h11 : i < 11
  · simp [show i < 12 by omega, hi]
  · rw [key i (by omega) hi]
    interval_cases i <;> simpa using k11

theorem immL_encI {imm16 : BitVec 16} (h : immLOk imm16 = true) (rs1 f3 rd c) :
    immL (encI (imm16.extractLsb' 0 12) rs1 f3 rd c) = imm16 := by
  have e := (immLOk_iff imm16).1 h
  rw [immL, immI_eq, csrOf_encI]
  conv_rhs => rw [e]
  apply BitVec.eq_of_getLsbD_eq
  intro i hi
  simp only [BitVec.getLsbD_setWidth, BitVec.getLsbD_signExtend]
  simp [hi, show i < 32 by omega]

theorem immS_encS {imm : BitVec 32} (h : imm12Ok imm = true) (rs2 rs1 f3 c) :
    immS (encS imm rs2 rs1 f3 c) = imm := by
  have key := (imm12Ok_iff imm).1 h
  have k11 := key 11 (by decide) (by decide)
  apply BitVec.eq_of_getLsbD_eq
  intro i hi
  simp only [immS, encS_cast, BitVec.getLsbD_signExtend, BitVec.getLsbD_append,
    BitVec.getLsbD_cast, BitVec.getLsbD_extractLsb', BitVec.msb_eq_getLsbD_last]
  by_cases h11 : i < 11
  · interval_cases i <;> simp
  · rw [key i (by omega) hi]
    interval_cases i <;> simpa using k11

theorem immB_encB {imm : BitVec 32} (h : immBOk imm = true) (rs2 rs1 f3 c) :
    immB (encB imm rs2 rs1 f3 c) = imm := by
  obtain ⟨k0, key⟩ := (immBOk_iff imm).1 h
  have k12 := key 12 (by decide) (by decide)
  apply BitVec.eq_of_getLsbD_eq
  intro i hi
  simp only [immB, encB_cast, BitVec.getLsbD_signExtend, BitVec.getLsbD_append,
    BitVec.getLsbD_cast, BitVec.getLsbD_extractLsb', BitVec.msb_eq_getLsbD_last]
  by_cases h12 : i < 12
  · interval_cases i <;> simp
    simpa using k0.symm
  · rw [key i (by omega) hi]
    interval_cases i <;> simpa using k12

theorem immU_encU {imm : BitVec 32} (h : immUOk imm = true) (rd c) :
    immU (encU imm rd c) = imm := by
  have key := (immUOk_iff imm).1 h
  apply BitVec.eq_of_getLsbD_eq
  intro i hi
  simp only [immU_cast, encU_cast, BitVec.getLsbD_append, BitVec.getLsbD_cast,
    BitVec.getLsbD_extractLsb']
  by_cases h12 : i < 12
  · simp [h12, key i h12]
  · interval_cases i <;> simp at h12 ⊢

theorem immJ_encJ {imm : BitVec 32} (h : immJOk imm = true) (rd c) :
    immJ (encJ imm rd c) = imm := by
  obtain ⟨k0, key⟩ := (immJOk_iff imm).1 h
  have k20 := key 20 (by decide) (by decide)
  apply BitVec.eq_of_getLsbD_eq
  intro i hi
  simp only [immJ, encJ_cast, BitVec.getLsbD_signExtend, BitVec.getLsbD_append,
    BitVec.getLsbD_cast, BitVec.getLsbD_extractLsb', BitVec.msb_eq_getLsbD_last]
  by_cases h20 : i < 20
  · interval_cases i <;> simp
    simpa using k0.symm
  · rw [key i (by omega) hi]
    interval_cases i <;> simpa using k20

/-! ### A word out of its decoded fields -/

@[simp] theorem immI_low (w : Word) : (immI w).extractLsb' 0 12 = csrOf w := by
  apply BitVec.eq_of_getLsbD_eq
  intro i hi
  simp only [immI_eq, BitVec.getLsbD_extractLsb', BitVec.getLsbD_signExtend]
  simp [hi, show i < 32 by omega]

@[simp] theorem immL_low (w : Word) : (immL w).extractLsb' 0 12 = csrOf w := by
  apply BitVec.eq_of_getLsbD_eq
  intro i hi
  simp only [immL, immI_eq, BitVec.getLsbD_extractLsb', BitVec.getLsbD_setWidth,
    BitVec.getLsbD_signExtend]
  simp [hi, show i < 32 by omega, show i < 16 by omega]

theorem encR_fields {w : Word} {c : OpcodeClass} {f3 f7} (h : opcodeOf w = c.code)
    (h3 : funct3Of w = f3) (h7 : funct7Of w = f7) :
    encR f7 ⟨rs2Of w⟩ ⟨rs1Of w⟩ f3 ⟨rdOf w⟩ c = w := by
  subst h3 h7
  apply word_ext <;> simp [h]

theorem encShift_fields {w : Word} {c : OpcodeClass} {f3 f7} (h : opcodeOf w = c.code)
    (h3 : funct3Of w = f3) (h7 : funct7Of w = f7) :
    encShift f7 (shamtOf w) ⟨rs1Of w⟩ f3 ⟨rdOf w⟩ c = w :=
  encR_fields h h3 h7

theorem encI_fields {w : Word} {c : OpcodeClass} {f3} (h : opcodeOf w = c.code)
    (h3 : funct3Of w = f3) :
    encI (csrOf w) (rs1Of w) f3 ⟨rdOf w⟩ c = w := by
  subst h3
  apply BitVec.eq_of_getLsbD_eq
  intro i hi
  simp only [encI_cast, ← h, csrOf, rs1Of, funct3Of, rdOf, opcodeOf, BitVec.getLsbD_cast,
    BitVec.getLsbD_append, BitVec.getLsbD_extractLsb']
  interval_cases i <;> simp

theorem encS_fields {w : Word} {c : OpcodeClass} {f3} (h : opcodeOf w = c.code)
    (h3 : funct3Of w = f3) :
    encS (immS w) ⟨rs2Of w⟩ ⟨rs1Of w⟩ f3 c = w := by
  subst h3
  apply BitVec.eq_of_getLsbD_eq
  intro i hi
  simp only [encS_cast, immS, ← h, rs2Of, rs1Of, funct3Of, opcodeOf, BitVec.getLsbD_cast,
    BitVec.getLsbD_append, BitVec.getLsbD_extractLsb', BitVec.getLsbD_signExtend,
    BitVec.msb_eq_getLsbD_last]
  interval_cases i <;> simp

theorem encB_fields {w : Word} {c : OpcodeClass} {f3} (h : opcodeOf w = c.code)
    (h3 : funct3Of w = f3) :
    encB (immB w) ⟨rs2Of w⟩ ⟨rs1Of w⟩ f3 c = w := by
  subst h3
  apply BitVec.eq_of_getLsbD_eq
  intro i hi
  simp only [encB_cast, immB, ← h, rs2Of, rs1Of, funct3Of, opcodeOf, BitVec.getLsbD_cast,
    BitVec.getLsbD_append, BitVec.getLsbD_extractLsb', BitVec.getLsbD_signExtend,
    BitVec.msb_eq_getLsbD_last]
  interval_cases i <;> simp

theorem encU_fields {w : Word} {c : OpcodeClass} (h : opcodeOf w = c.code) :
    encU (immU w) ⟨rdOf w⟩ c = w := by
  apply BitVec.eq_of_getLsbD_eq
  intro i hi
  simp only [encU_cast, immU_cast, ← h, rdOf, opcodeOf, BitVec.getLsbD_cast,
    BitVec.getLsbD_append, BitVec.getLsbD_extractLsb']
  interval_cases i <;> simp

theorem encJ_fields {w : Word} {c : OpcodeClass} (h : opcodeOf w = c.code) :
    encJ (immJ w) ⟨rdOf w⟩ c = w := by
  apply BitVec.eq_of_getLsbD_eq
  intro i hi
  simp only [encJ_cast, immJ, ← h, rdOf, opcodeOf, BitVec.getLsbD_cast,
    BitVec.getLsbD_append, BitVec.getLsbD_extractLsb', BitVec.getLsbD_signExtend,
    BitVec.msb_eq_getLsbD_last]
  interval_cases i <;> simp

end Sys2Proof
end

