-- ==== Sys2Proof/Laws/PerInstr.lean ====
section
/-! SUPPORT. Statements made per instruction. EncodingClass: the class R31 gives a variant's tag is
the class whose opcode its word carries, and the handler of that class is the one that decodes it. -/

namespace Sys2Proof.Laws

def EncodingClass.Statement (i : Instr) : Prop :=
  ∃ c : OpcodeClass, classOfTag i.tag = some c ∧ opcodeOf (encode i) = c.code ∧
    decode (encode i) = handler c (encode i)

/-- From the class and the opcode the rest follows. -/
theorem encodingClass_of_code {i : Instr} {c : OpcodeClass} (hc : classOfTag i.tag = some c)
    (h : opcodeOf (encode i) = c.code) : EncodingClass.Statement i :=
  ⟨c, hc, h, decode_of_code h⟩

namespace EncodingClass

theorem lui (rd : Register) (imm : BitVec 32) : Statement (.lui rd imm) :=
  encodingClass_of_code rfl (opcodeOf_encU ..)

theorem auipc (rd : Register) (imm : BitVec 32) : Statement (.auipc rd imm) :=
  encodingClass_of_code rfl (opcodeOf_encU ..)

theorem jal (rd : Register) (imm : BitVec 32) : Statement (.jal rd imm) :=
  encodingClass_of_code rfl (opcodeOf_encJ ..)

theorem jalr (rd rs1 : Register) (imm : BitVec 32) : Statement (.jalr rd rs1 imm) :=
  encodingClass_of_code rfl (opcodeOf_encI ..)

theorem beq (rs1 rs2 : Register) (imm : BitVec 32) : Statement (.beq rs1 rs2 imm) :=
  encodingClass_of_code rfl (opcodeOf_encB ..)

theorem bne (rs1 rs2 : Register) (imm : BitVec 32) : Statement (.bne rs1 rs2 imm) :=
  encodingClass_of_code rfl (opcodeOf_encB ..)

theorem blt (rs1 rs2 : Register) (imm : BitVec 32) : Statement (.blt rs1 rs2 imm) :=
  encodingClass_of_code rfl (opcodeOf_encB ..)

theorem bge (rs1 rs2 : Register) (imm : BitVec 32) : Statement (.bge rs1 rs2 imm) :=
  encodingClass_of_code rfl (opcodeOf_encB ..)

theorem bltu (rs1 rs2 : Register) (imm : BitVec 32) : Statement (.bltu rs1 rs2 imm) :=
  encodingClass_of_code rfl (opcodeOf_encB ..)

theorem bgeu (rs1 rs2 : Register) (imm : BitVec 32) : Statement (.bgeu rs1 rs2 imm) :=
  encodingClass_of_code rfl (opcodeOf_encB ..)

theorem lb (rd rs1 : Register) (imm16 : BitVec 16) : Statement (.lb rd rs1 imm16) :=
  encodingClass_of_code rfl (opcodeOf_encI ..)

theorem lh (rd rs1 : Register) (imm16 : BitVec 16) : Statement (.lh rd rs1 imm16) :=
  encodingClass_of_code rfl (opcodeOf_encI ..)

theorem lw (rd rs1 : Register) (imm16 : BitVec 16) : Statement (.lw rd rs1 imm16) :=
  encodingClass_of_code rfl (opcodeOf_encI ..)

theorem lbu (rd rs1 : Register) (imm16 : BitVec 16) : Statement (.lbu rd rs1 imm16) :=
  encodingClass_of_code rfl (opcodeOf_encI ..)

theorem lhu (rd rs1 : Register) (imm16 : BitVec 16) : Statement (.lhu rd rs1 imm16) :=
  encodingClass_of_code rfl (opcodeOf_encI ..)

theorem sb (rs1 rs2 : Register) (imm : BitVec 32) : Statement (.sb rs1 rs2 imm) :=
  encodingClass_of_code rfl (opcodeOf_encS ..)

theorem sh (rs1 rs2 : Register) (imm : BitVec 32) : Statement (.sh rs1 rs2 imm) :=
  encodingClass_of_code rfl (opcodeOf_encS ..)

theorem sw (rs1 rs2 : Register) (imm : BitVec 32) : Statement (.sw rs1 rs2 imm) :=
  encodingClass_of_code rfl (opcodeOf_encS ..)

theorem addi (rd rs1 : Register) (imm : BitVec 32) : Statement (.addi rd rs1 imm) :=
  encodingClass_of_code rfl (opcodeOf_encI ..)

theorem slti (rd rs1 : Register) (imm : BitVec 32) : Statement (.slti rd rs1 imm) :=
  encodingClass_of_code rfl (opcodeOf_encI ..)

theorem sltiu (rd rs1 : Register) (imm : BitVec 32) : Statement (.sltiu rd rs1 imm) :=
  encodingClass_of_code rfl (opcodeOf_encI ..)

theorem xori (rd rs1 : Register) (imm : BitVec 32) : Statement (.xori rd rs1 imm) :=
  encodingClass_of_code rfl (opcodeOf_encI ..)

theorem ori (rd rs1 : Register) (imm : BitVec 32) : Statement (.ori rd rs1 imm) :=
  encodingClass_of_code rfl (opcodeOf_encI ..)

theorem andi (rd rs1 : Register) (imm : BitVec 32) : Statement (.andi rd rs1 imm) :=
  encodingClass_of_code rfl (opcodeOf_encI ..)

theorem slli (rd rs1 : Register) (shamt : BitVec 5) : Statement (.slli rd rs1 shamt) :=
  encodingClass_of_code rfl (opcodeOf_encShift ..)

theorem srli (rd rs1 : Register) (shamt : BitVec 5) : Statement (.srli rd rs1 shamt) :=
  encodingClass_of_code rfl (opcodeOf_encShift ..)

theorem srai (rd rs1 : Register) (shamt : BitVec 5) : Statement (.srai rd rs1 shamt) :=
  encodingClass_of_code rfl (opcodeOf_encShift ..)

theorem add (rd rs1 rs2 : Register) : Statement (.add rd rs1 rs2) :=
  encodingClass_of_code rfl (opcodeOf_encR ..)

theorem sub (rd rs1 rs2 : Register) : Statement (.sub rd rs1 rs2) :=
  encodingClass_of_code rfl (opcodeOf_encR ..)

theorem sll (rd rs1 rs2 : Register) : Statement (.sll rd rs1 rs2) :=
  encodingClass_of_code rfl (opcodeOf_encR ..)

theorem slt (rd rs1 rs2 : Register) : Statement (.slt rd rs1 rs2) :=
  encodingClass_of_code rfl (opcodeOf_encR ..)

theorem sltu (rd rs1 rs2 : Register) : Statement (.sltu rd rs1 rs2) :=
  encodingClass_of_code rfl (opcodeOf_encR ..)

theorem xor (rd rs1 rs2 : Register) : Statement (.xor rd rs1 rs2) :=
  encodingClass_of_code rfl (opcodeOf_encR ..)

theorem srl (rd rs1 rs2 : Register) : Statement (.srl rd rs1 rs2) :=
  encodingClass_of_code rfl (opcodeOf_encR ..)

theorem sra (rd rs1 rs2 : Register) : Statement (.sra rd rs1 rs2) :=
  encodingClass_of_code rfl (opcodeOf_encR ..)

theorem or (rd rs1 rs2 : Register) : Statement (.or rd rs1 rs2) :=
  encodingClass_of_code rfl (opcodeOf_encR ..)

theorem and (rd rs1 rs2 : Register) : Statement (.and rd rs1 rs2) :=
  encodingClass_of_code rfl (opcodeOf_encR ..)

theorem fence : Statement .fence :=
  encodingClass_of_code rfl (opcodeOf_encI ..)

theorem fenceI : Statement .fenceI :=
  encodingClass_of_code rfl (opcodeOf_encI ..)

theorem ecall : Statement .ecall :=
  encodingClass_of_code (c := .system) rfl opcodeOf_ecall

theorem ebreak : Statement .ebreak :=
  encodingClass_of_code (c := .system) rfl opcodeOf_ebreak

theorem mret : Statement .mret :=
  encodingClass_of_code (c := .system) rfl opcodeOf_mret

theorem csrrw (rd rs1 : Register) (csr : BitVec 12) : Statement (.csrrw rd rs1 csr) :=
  encodingClass_of_code rfl (opcodeOf_encI ..)

theorem csrrs (rd rs1 : Register) (csr : BitVec 12) : Statement (.csrrs rd rs1 csr) :=
  encodingClass_of_code rfl (opcodeOf_encI ..)

theorem csrrc (rd rs1 : Register) (csr : BitVec 12) : Statement (.csrrc rd rs1 csr) :=
  encodingClass_of_code rfl (opcodeOf_encI ..)

theorem csrrwi (rd : Register) (zimm : BitVec 5) (csr : BitVec 12) : Statement (.csrrwi rd zimm csr) :=
  encodingClass_of_code rfl (opcodeOf_encI ..)

theorem csrrsi (rd : Register) (zimm : BitVec 5) (csr : BitVec 12) : Statement (.csrrsi rd zimm csr) :=
  encodingClass_of_code rfl (opcodeOf_encI ..)

theorem csrrci (rd : Register) (zimm : BitVec 5) (csr : BitVec 12) : Statement (.csrrci rd zimm csr) :=
  encodingClass_of_code rfl (opcodeOf_encI ..)

end EncodingClass

end Sys2Proof.Laws
end

