-- ==== Sys2Proof/Machine/Names.lean ====
section
/-! DEFINITION. The names the spec writes for reading only; no rule of the block depends on them
(10_state.md R28, 30_encoding.md R88). -/

namespace Sys2Proof.Machine

/-- Register i is written `x<i>` (R28; 92_eei_decisions.md D23). -/
def registerNames : List String :=
  ["x0", "x1", "x2", "x3", "x4", "x5", "x6", "x7", "x8", "x9", "x10", "x11", "x12", "x13", "x14",
   "x15"] ++
  ["x16", "x17", "x18", "x19", "x20", "x21", "x22", "x23", "x24", "x25", "x26", "x27", "x28",
   "x29", "x30", "x31"]

/-- The ABI names of R28; index 8 is also `fp`. -/
def abiNames : List String :=
  ["zero", "ra", "sp", "gp", "tp", "t0", "t1", "t2", "s0", "s1", "a0", "a1", "a2", "a3", "a4",
   "a5"] ++
  ["a6", "a7", "s2", "s3", "s4", "s5", "s6", "s7", "s8", "s9", "s10", "s11", "t3", "t4", "t5",
   "t6"]

/-- The opcode map of R88, the cell of `word[6:2]` where `word[1:0] = 11`. -/
def opcodeCellNames : List String :=
  ["LOAD", "LOAD-FP", "custom-0", "MISC-MEM", "OP-IMM", "AUIPC", "OP-IMM-32", "48-bit",
   "STORE", "STORE-FP", "custom-1", "AMO", "OP", "LUI", "OP-32", "64-bit"] ++
  ["MADD", "MSUB", "NMSUB", "NMADD", "OP-FP", "OP-V", "custom-2", "48-bit",
   "BRANCH", "JALR", "reserved", "JAL", "SYSTEM", "reserved", "custom-3", ">=80-bit"]

def registerName (r : Register) : String := registerNames.getD r.index.toNat ""
def abiName (r : Register) : String := abiNames.getD r.index.toNat ""

/-- The name of an opcode value's cell; none where `word[1:0]` is not `11` (R100). -/
def opcodeCellName (code : BitVec 7) : Option String :=
  if code.extractLsb' 0 2 = 0b11 then opcodeCellNames[(code.extractLsb' 2 5).toNat]? else none

/-- The variant's mnemonic: the `variant` column of R31. -/
def mnemonic (i : Instr) : Option String :=
  (opcodeTable.find? (fun row => row.tag == i.tag)).map (fun row => row.mnemonic)

end Sys2Proof.Machine
end

