-- ==== Sys2Proof/Tests/Slice0.lean ====
section
/-! SUPPORT. The author's own tests. Words are written out field by field from the format rows of
30_encoding.md R70; expected results are those of 95_test_vectors.md (its section in each comment).
The witnesses show, for each obligation with hypotheses, a concrete case that meets them. -/

namespace Sys2Proof.Tests

open Sys2Proof Sys2Proof.Machine

/-! ### WellFormed: an ill-formed term for each check, refused (R101, R36) -/

theorem test_wf_imm12_too_large : (Instr.addi ⟨1⟩ ⟨2⟩ 2048).wellFormed = false := by decide
theorem test_wf_imm12_too_small : (Instr.sw ⟨1⟩ ⟨2⟩ (-2049)).wellFormed = false := by decide
theorem test_wf_immL_gap : (Instr.lw ⟨1⟩ ⟨2⟩ 0x0800).wellFormed = false := by decide
theorem test_wf_immL_gap_top : (Instr.lb ⟨1⟩ ⟨2⟩ 0xF7FF).wellFormed = false := by decide
theorem test_wf_immB_odd : (Instr.beq ⟨1⟩ ⟨2⟩ 7).wellFormed = false := by decide
theorem test_wf_immB_range : (Instr.bgeu ⟨1⟩ ⟨2⟩ 4096).wellFormed = false := by decide
theorem test_wf_immU_low_bits : (Instr.lui ⟨1⟩ 0x12345001).wellFormed = false := by decide
theorem test_wf_immJ_odd : (Instr.jal ⟨1⟩ 1).wellFormed = false := by decide
theorem test_wf_immJ_range : (Instr.jal ⟨1⟩ 1048576).wellFormed = false := by decide
theorem test_wf_three_bytes : fourBytes [0x13, 0, 0] = false := by decide

/-! ### Decoding, one word per constructor (sections 1 and 2.3) -/

theorem test_decode_lui : decode
    (0b00010010001101000101#20 ++ 0b00101#5 ++ 0b0110111#7)
    = .ok ⟨.w32, .lui ⟨5⟩ 0x12345000⟩ := by decide

theorem test_decode_auipc : decode
    (0b11111111111111111111#20 ++ 0b01010#5 ++ 0b0010111#7)
    = .ok ⟨.w32, .auipc ⟨10⟩ 0xFFFFF000⟩ := by decide

theorem test_decode_jal : decode
    (0b0#1 ++ 0b0000000000#10 ++ 0b1#1 ++ 0b00000000#8 ++ 0b00001#5 ++ 0b1101111#7)
    = .ok ⟨.w32, .jal ⟨1⟩ 0x00000800⟩ := by decide

theorem test_decode_jalr : decode
    (0b000000000000#12 ++ 0b00001#5 ++ 0b000#3 ++ 0b00000#5 ++ 0b1100111#7)
    = .ok ⟨.w32, .jalr ⟨0⟩ ⟨1⟩ 0x00000000⟩ := by decide

theorem test_decode_beq : decode
    (0b0#1 ++ 0b000000#6 ++ 0b00010#5 ++ 0b00001#5 ++ 0b000#3 ++ 0b0100#4 ++ 0b0#1 ++ 0b1100011#7)
    = .ok ⟨.w32, .beq ⟨1⟩ ⟨2⟩ 0x00000008⟩ := by decide

theorem test_decode_bne : decode
    (0b1#1 ++ 0b111111#6 ++ 0b00100#5 ++ 0b00011#5 ++ 0b001#3 ++ 0b1110#4 ++ 0b1#1 ++ 0b1100011#7)
    = .ok ⟨.w32, .bne ⟨3⟩ ⟨4⟩ 0xFFFFFFFC⟩ := by decide

theorem test_decode_blt : decode
    (0b0#1 ++ 0b111111#6 ++ 0b00110#5 ++ 0b00101#5 ++ 0b100#3 ++ 0b1111#4 ++ 0b1#1 ++ 0b1100011#7)
    = .ok ⟨.w32, .blt ⟨5⟩ ⟨6⟩ 0x00000FFE⟩ := by decide

theorem test_decode_bge : decode
    (0b1#1 ++ 0b000000#6 ++ 0b01000#5 ++ 0b00111#5 ++ 0b101#3 ++ 0b0000#4 ++ 0b0#1 ++ 0b1100011#7)
    = .ok ⟨.w32, .bge ⟨7⟩ ⟨8⟩ 0xFFFFF000⟩ := by decide

theorem test_decode_bltu : decode
    (0b0#1 ++ 0b000000#6 ++ 0b01010#5 ++ 0b01001#5 ++ 0b110#3 ++ 0b0000#4 ++ 0b1#1 ++ 0b1100011#7)
    = .ok ⟨.w32, .bltu ⟨9⟩ ⟨10⟩ 0x00000800⟩ := by decide

theorem test_decode_bgeu : decode
    (0b1#1 ++ 0b111111#6 ++ 0b01100#5 ++ 0b01011#5 ++ 0b111#3 ++ 0b1111#4 ++ 0b1#1 ++ 0b1100011#7)
    = .ok ⟨.w32, .bgeu ⟨11⟩ ⟨12⟩ 0xFFFFFFFE⟩ := by decide

theorem test_decode_lb : decode
    (0b111111111111#12 ++ 0b00110#5 ++ 0b000#3 ++ 0b00101#5 ++ 0b0000011#7)
    = .ok ⟨.w32, .lb ⟨5⟩ ⟨6⟩ 0xFFFF⟩ := by decide

theorem test_decode_lh : decode
    (0b011111111111#12 ++ 0b01000#5 ++ 0b001#3 ++ 0b00111#5 ++ 0b0000011#7)
    = .ok ⟨.w32, .lh ⟨7⟩ ⟨8⟩ 0x07FF⟩ := by decide

theorem test_decode_lw : decode
    (0b100000000000#12 ++ 0b01010#5 ++ 0b010#3 ++ 0b01001#5 ++ 0b0000011#7)
    = .ok ⟨.w32, .lw ⟨9⟩ ⟨10⟩ 0xF800⟩ := by decide

theorem test_decode_lbu : decode
    (0b000000000000#12 ++ 0b01100#5 ++ 0b100#3 ++ 0b01011#5 ++ 0b0000011#7)
    = .ok ⟨.w32, .lbu ⟨11⟩ ⟨12⟩ 0x0000⟩ := by decide

theorem test_decode_lhu : decode
    (0b000001100100#12 ++ 0b01110#5 ++ 0b101#3 ++ 0b01101#5 ++ 0b0000011#7)
    = .ok ⟨.w32, .lhu ⟨13⟩ ⟨14⟩ 0x0064⟩ := by decide

theorem test_decode_addi : decode
    (0b000000000000#12 ++ 0b00000#5 ++ 0b000#3 ++ 0b00000#5 ++ 0b0010011#7)
    = .ok ⟨.w32, .addi ⟨0⟩ ⟨0⟩ 0x00000000⟩ := by decide

theorem test_decode_slti : decode
    (0b000000000101#12 ++ 0b00011#5 ++ 0b010#3 ++ 0b00010#5 ++ 0b0010011#7)
    = .ok ⟨.w32, .slti ⟨2⟩ ⟨3⟩ 0x00000005⟩ := by decide

theorem test_decode_sltiu : decode
    (0b111111111111#12 ++ 0b00101#5 ++ 0b011#3 ++ 0b00100#5 ++ 0b0010011#7)
    = .ok ⟨.w32, .sltiu ⟨4⟩ ⟨5⟩ 0xFFFFFFFF⟩ := by decide

theorem test_decode_xori : decode
    (0b111111111111#12 ++ 0b00111#5 ++ 0b100#3 ++ 0b00110#5 ++ 0b0010011#7)
    = .ok ⟨.w32, .xori ⟨6⟩ ⟨7⟩ 0xFFFFFFFF⟩ := by decide

theorem test_decode_ori : decode
    (0b011111111111#12 ++ 0b01001#5 ++ 0b110#3 ++ 0b01000#5 ++ 0b0010011#7)
    = .ok ⟨.w32, .ori ⟨8⟩ ⟨9⟩ 0x000007FF⟩ := by decide

theorem test_decode_andi : decode
    (0b000011111111#12 ++ 0b01011#5 ++ 0b111#3 ++ 0b01010#5 ++ 0b0010011#7)
    = .ok ⟨.w32, .andi ⟨10⟩ ⟨11⟩ 0x000000FF⟩ := by decide

theorem test_decode_sb : decode
    (0b1111111#7 ++ 0b00101#5 ++ 0b00110#5 ++ 0b000#3 ++ 0b11111#5 ++ 0b0100011#7)
    = .ok ⟨.w32, .sb ⟨6⟩ ⟨5⟩ 0xFFFFFFFF⟩ := by decide

theorem test_decode_sh : decode
    (0b0111111#7 ++ 0b00111#5 ++ 0b01000#5 ++ 0b001#3 ++ 0b11111#5 ++ 0b0100011#7)
    = .ok ⟨.w32, .sh ⟨8⟩ ⟨7⟩ 0x000007FF⟩ := by decide

theorem test_decode_sw : decode
    (0b1000000#7 ++ 0b01001#5 ++ 0b01010#5 ++ 0b010#3 ++ 0b00000#5 ++ 0b0100011#7)
    = .ok ⟨.w32, .sw ⟨10⟩ ⟨9⟩ 0xFFFFF800⟩ := by decide

theorem test_decode_slli : decode
    (0b0000000#7 ++ 0b11111#5 ++ 0b00010#5 ++ 0b001#3 ++ 0b00001#5 ++ 0b0010011#7)
    = .ok ⟨.w32, .slli ⟨1⟩ ⟨2⟩ 31⟩ := by decide

theorem test_decode_srli : decode
    (0b0000000#7 ++ 0b00000#5 ++ 0b00100#5 ++ 0b101#3 ++ 0b00011#5 ++ 0b0010011#7)
    = .ok ⟨.w32, .srli ⟨3⟩ ⟨4⟩ 0⟩ := by decide

theorem test_decode_srai : decode
    (0b0100000#7 ++ 0b11111#5 ++ 0b00110#5 ++ 0b101#3 ++ 0b00101#5 ++ 0b0010011#7)
    = .ok ⟨.w32, .srai ⟨5⟩ ⟨6⟩ 31⟩ := by decide

theorem test_decode_add : decode
    (0b0000000#7 ++ 0b00011#5 ++ 0b00010#5 ++ 0b000#3 ++ 0b00001#5 ++ 0b0110011#7)
    = .ok ⟨.w32, .add ⟨1⟩ ⟨2⟩ ⟨3⟩⟩ := by decide

theorem test_decode_sub : decode
    (0b0100000#7 ++ 0b00110#5 ++ 0b00101#5 ++ 0b000#3 ++ 0b00100#5 ++ 0b0110011#7)
    = .ok ⟨.w32, .sub ⟨4⟩ ⟨5⟩ ⟨6⟩⟩ := by decide

theorem test_decode_sll : decode
    (0b0000000#7 ++ 0b01001#5 ++ 0b01000#5 ++ 0b001#3 ++ 0b00111#5 ++ 0b0110011#7)
    = .ok ⟨.w32, .sll ⟨7⟩ ⟨8⟩ ⟨9⟩⟩ := by decide

theorem test_decode_slt : decode
    (0b0000000#7 ++ 0b01100#5 ++ 0b01011#5 ++ 0b010#3 ++ 0b01010#5 ++ 0b0110011#7)
    = .ok ⟨.w32, .slt ⟨10⟩ ⟨11⟩ ⟨12⟩⟩ := by decide

theorem test_decode_sltu : decode
    (0b0000000#7 ++ 0b01111#5 ++ 0b01110#5 ++ 0b011#3 ++ 0b01101#5 ++ 0b0110011#7)
    = .ok ⟨.w32, .sltu ⟨13⟩ ⟨14⟩ ⟨15⟩⟩ := by decide

theorem test_decode_xor : decode
    (0b0000000#7 ++ 0b10010#5 ++ 0b10001#5 ++ 0b100#3 ++ 0b10000#5 ++ 0b0110011#7)
    = .ok ⟨.w32, .xor ⟨16⟩ ⟨17⟩ ⟨18⟩⟩ := by decide

theorem test_decode_srl : decode
    (0b0000000#7 ++ 0b10101#5 ++ 0b10100#5 ++ 0b101#3 ++ 0b10011#5 ++ 0b0110011#7)
    = .ok ⟨.w32, .srl ⟨19⟩ ⟨20⟩ ⟨21⟩⟩ := by decide

theorem test_decode_sra : decode
    (0b0100000#7 ++ 0b11000#5 ++ 0b10111#5 ++ 0b101#3 ++ 0b10110#5 ++ 0b0110011#7)
    = .ok ⟨.w32, .sra ⟨22⟩ ⟨23⟩ ⟨24⟩⟩ := by decide

theorem test_decode_or : decode
    (0b0000000#7 ++ 0b11011#5 ++ 0b11010#5 ++ 0b110#3 ++ 0b11001#5 ++ 0b0110011#7)
    = .ok ⟨.w32, .or ⟨25⟩ ⟨26⟩ ⟨27⟩⟩ := by decide

theorem test_decode_and : decode
    (0b0000000#7 ++ 0b11110#5 ++ 0b11101#5 ++ 0b111#3 ++ 0b11100#5 ++ 0b0110011#7)
    = .ok ⟨.w32, .and ⟨28⟩ ⟨29⟩ ⟨30⟩⟩ := by decide

theorem test_decode_fence : decode
    (0b111111111111#12 ++ 0b11111#5 ++ 0b000#3 ++ 0b11111#5 ++ 0b0001111#7)
    = .ok ⟨.w32, .fence⟩ := by decide

theorem test_decode_fenceI : decode
    (0b111111111111#12 ++ 0b11111#5 ++ 0b001#3 ++ 0b11111#5 ++ 0b0001111#7)
    = .ok ⟨.w32, .fenceI⟩ := by decide

theorem test_decode_ecall : decode
    (0b000000000000#12 ++ 0b00000#5 ++ 0b000#3 ++ 0b00000#5 ++ 0b1110011#7)
    = .ok ⟨.w32, .ecall⟩ := by decide

theorem test_decode_ebreak : decode
    (0b000000000001#12 ++ 0b00000#5 ++ 0b000#3 ++ 0b00000#5 ++ 0b1110011#7)
    = .ok ⟨.w32, .ebreak⟩ := by decide

theorem test_decode_mret : decode
    (0b001100000010#12 ++ 0b00000#5 ++ 0b000#3 ++ 0b00000#5 ++ 0b1110011#7)
    = .ok ⟨.w32, .mret⟩ := by decide

theorem test_decode_csrrw : decode
    (0b001100000000#12 ++ 0b00010#5 ++ 0b001#3 ++ 0b00001#5 ++ 0b1110011#7)
    = .ok ⟨.w32, .csrrw ⟨1⟩ ⟨2⟩ 0x300⟩ := by decide

theorem test_decode_csrrs : decode
    (0b110000000000#12 ++ 0b00000#5 ++ 0b010#3 ++ 0b00011#5 ++ 0b1110011#7)
    = .ok ⟨.w32, .csrrs ⟨3⟩ ⟨0⟩ 0xC00⟩ := by decide

theorem test_decode_csrrc : decode
    (0b001101000100#12 ++ 0b00101#5 ++ 0b011#3 ++ 0b00100#5 ++ 0b1110011#7)
    = .ok ⟨.w32, .csrrc ⟨4⟩ ⟨5⟩ 0x344⟩ := by decide

theorem test_decode_csrrwi : decode
    (0b001100000101#12 ++ 0b11111#5 ++ 0b101#3 ++ 0b00000#5 ++ 0b1110011#7)
    = .ok ⟨.w32, .csrrwi ⟨0⟩ 31 0x305⟩ := by decide

theorem test_decode_csrrsi : decode
    (0b001100000000#12 ++ 0b01000#5 ++ 0b110#3 ++ 0b00110#5 ++ 0b1110011#7)
    = .ok ⟨.w32, .csrrsi ⟨6⟩ 8 0x300⟩ := by decide

theorem test_decode_csrrci : decode
    (0b111111111111#12 ++ 0b00000#5 ++ 0b111#3 ++ 0b00111#5 ++ 0b1110011#7)
    = .ok ⟨.w32, .csrrci ⟨7⟩ 0 0xFFF⟩ := by decide

/-! ### Errors (sections 1, 2.3 and 2.4) -/

theorem test_errors_opcode :
    decode 0x00000000 = .err (.unrecognizedOpcode 0b0000000) ∧
    decode 0xFFFFFFFF = .err (.unrecognizedOpcode 0b1111111) ∧
    decode 0x00004501 = .err (.unrecognizedOpcode 0b0000001) ∧
    decode 0x0000202F = .err (.unrecognizedOpcode 0b0101111) ∧
    decode 0x0000006B = .err (.unrecognizedOpcode 0b1101011) ∧
    decode 0xFE00707F = .err (.unrecognizedOpcode 0b1111111) := by decide

theorem test_errors_funct3 :
    decode 0x00003023 = .err (.invalidFunct3 0b0100011 0b011) ∧
    decode 0x0000F067 = .err (.invalidFunct3 0b1100111 0b111) ∧
    decode 0xFFFFA0E3 = .err (.invalidFunct3 0b1100011 0b010) ∧
    decode 0x00006003 = .err (.invalidFunct3 0b0000011 0b110) ∧
    decode 0x0000700F = .err (.invalidFunct3 0b0001111 0b111) ∧
    decode 0xFFFF8FF3 = .err (.invalidFunct3 0b1110011 0b000) := by decide

theorem test_errors_funct7 :
    decode 0x40011093 = .err (.invalidFunct7 0b001 0b0100000) ∧
    decode 0x60015093 = .err (.invalidFunct7 0b101 0b0110000) ∧
    decode 0x023110B3 = .err (.invalidFunct7 0b001 0b0000001) ∧
    decode 0x403170B3 = .err (.invalidFunct7 0b111 0b0100000) ∧
    decode 0xFE0070B3 = .err (.invalidFunct7 0b111 0b1111111) := by decide

/-! ### The resolver (section 2.1) -/

theorem test_resolver :
    resolve 0 = .ok ⟨0⟩ ∧ resolve 31 = .ok ⟨31⟩ ∧ resolve 32 = .err (.invalidRegister 32) ∧
    resolve 255 = .err (.invalidRegister 255) ∧ toIndex ⟨17⟩ = 17 := by decide

theorem test_list_from_bitmask :
    listFromBitmask 0x80000001 = [⟨0⟩, ⟨31⟩] ∧
    listFromBitmask 0x0000F00A = [⟨1⟩, ⟨3⟩, ⟨12⟩, ⟨13⟩, ⟨14⟩, ⟨15⟩] := by decide

/-! ### The reconstructor (section 2.2) -/

theorem test_immediates_80000000 : reconstruct 0x80000000 =
    ⟨0xFFFFF800, 0xF800, 0xFFFFF800, 0xFFFFF000, 0x80000000, 0xFFF00000⟩ := by decide
theorem test_immediates_00000F80 : reconstruct 0x00000F80 =
    ⟨0x00000000, 0x0000, 0x0000001F, 0x0000081E, 0x00000000, 0x00000000⟩ := by decide
theorem test_immediates_AAAAAAAA : reconstruct 0xAAAAAAAA =
    ⟨0xFFFFFAAA, 0xFAAA, 0xFFFFFAB5, 0xFFFFFAB4, 0xAAAAA000, 0xFFFAA2AA⟩ := by decide
theorem test_immediates_12345678 : reconstruct 0x12345678 =
    ⟨0x00000123, 0x0123, 0x0000012C, 0x0000012C, 0x12345000, 0x00045922⟩ := by decide

/-! ### The bundle after one step (section 2.5) -/

/-- One step on a word presented after reset; the error ports of `State.reset` if it stops. -/
def portsAfter (w : Word) : Ports :=
  match step (State.reset.present w) with
  | .next s => s.ports
  | .fault _ => State.reset.ports
  | .refused _ => State.reset.ports

theorem test_ports_FFF00093 : portsAfter 0xFFF00093 =
    ⟨1, 0, 18, 1, 0, 0, 0xFFFFFFFF, 0, 0, 0x000, 0, 0x00, 0x00⟩ := by decide
theorem test_ports_80052483 : portsAfter 0x80052483 =
    ⟨1, 0, 12, 9, 10, 0, 0x0000F800, 0, 0, 0x000, 0, 0x00, 0x00⟩ := by decide
theorem test_ports_41F35293 : portsAfter 0x41F35293 =
    ⟨1, 0, 26, 5, 6, 0, 0x00000000, 31, 0, 0x000, 0, 0x00, 0x00⟩ := by decide
theorem test_ports_305FD073 : portsAfter 0x305FD073 =
    ⟨1, 0, 45, 0, 0, 0, 0x00000000, 0, 31, 0x305, 0, 0x00, 0x00⟩ := by decide
theorem test_ports_300110F3 : portsAfter 0x300110F3 =
    ⟨1, 0, 42, 1, 2, 0, 0x00000000, 0, 0, 0x300, 0, 0x00, 0x00⟩ := by decide
theorem test_ports_00208463 : portsAfter 0x00208463 =
    ⟨1, 0, 4, 0, 1, 2, 0x00000008, 0, 0, 0x000, 0, 0x00, 0x00⟩ := by decide
theorem test_ports_30200073 : portsAfter 0x30200073 =
    ⟨1, 0, 41, 0, 0, 0, 0x00000000, 0, 0, 0x000, 0, 0x00, 0x00⟩ := by decide
theorem test_ports_00003023 : portsAfter 0x00003023 =
    ⟨0, 0, 0, 0, 0, 0, 0x00000000, 0, 0, 0x000, 1, 0x23, 0x03⟩ := by decide
theorem test_ports_023100B3 : portsAfter 0x023100B3 =
    ⟨0, 0, 0, 0, 0, 0, 0x00000000, 0, 0, 0x000, 2, 0x00, 0x01⟩ := by decide
theorem test_ports_0000007F : portsAfter 0x0000007F =
    ⟨0, 0, 0, 0, 0, 0, 0x00000000, 0, 0, 0x000, 0, 0x7F, 0x00⟩ := by decide

/-! ### The wrapper and streams (sections 2.6 and 3) -/

theorem test_wrapper_bytes :
    wrap [0x73, 0x00, 0x10, 0x00] = .word 0x00100073 ∧
    wrap [0x6F, 0x00, 0x00, 0x80] = .word 0x8000006F ∧
    decodeBytes 0xB3 0x00 0x31 0x00 = .ok ⟨.w32, .add ⟨1⟩ ⟨2⟩ ⟨3⟩⟩ := by decide

/-- The end of P4: FENCE.I, MUL, a zero word, WFI, MRET. -/
theorem test_stream_P4_end :
    decodeStream ([0x0F, 0x10, 0x00, 0x00, 0xB3, 0x00, 0x31, 0x02, 0x00, 0x00, 0x00, 0x00] ++
      [0x73, 0x00, 0x50, 0x10, 0x73, 0x00, 0x20, 0x30]) =
    .results [.ok ⟨.w32, .fenceI⟩, .err (.invalidFunct7 0b000 0b0000001),
      .err (.unrecognizedOpcode 0), .err (.invalidFunct3 0b1110011 0b000),
      .ok ⟨.w32, .mret⟩] := by decide

/-- The wrapper instance shows what the word instance shows (R52). -/
theorem test_step_behind_wrapper :
    step { State.reset with inputs := { State.reset.inputs with front := .bytes 0x93 0x00 0xF0 0xFF } } =
      .next { inputs := { State.reset.inputs with front := .bytes 0x93 0x00 0xF0 0xFF }
              ports := ⟨1, 0, 18, 1, 0, 0, 0xFFFFFFFF, 0, 0, 0, 0, 0, 0⟩
              imms := reconstruct 0xFFF00093
              resolver := State.reset.resolver } := rfl

/-- A table word is presented on the word input and on the byte lanes alike. -/
theorem test_withFetchWord :
    (State.reset.withFetchWord 32 0x00100073).inputs.front = .word 0x00100073 ∧
    decodeTableWord 32 0x00100073 = some .ebreak ∧ decodeTableWord 32 0 = none := by decide

/-- The numbers of R7 are those of the tables. -/
theorem test_config :
    opcodeTable.length = Config.variantCount ∧ opcodeClasses.length = Config.opcodeCount ∧
    registerNames.length = Config.nreg ∧ Config.stateElementCount = 0 := by decide

/-- R28, R88. -/
theorem test_names :
    abiName ⟨8⟩ = "s0" ∧ opcodeCellName 0b1100111 = some "JALR" ∧ opcodeCellName 0 = none ∧
    mnemonic .fenceI = some "FENCE.I" := by decide

/-- R104: 0x12345FFF is hi20 = 0x12346 and lo12 = -1. -/
theorem test_expand_li_negative_low :
    expand (.li ⟨5⟩ 0x12345FFF) = [.lui ⟨5⟩ 0x12346000, .addi ⟨5⟩ ⟨5⟩ 0xFFFFFFFF] := by decide

theorem test_expand_tail :
    expand (.tail 0x00001004) = [.auipc ⟨6⟩ 0x00001000, .jalr ⟨0⟩ ⟨6⟩ 4] := by decide

/-- The lanes of a wrapper instance (R51). -/
theorem test_withFetchWord_lanes :
    (State.withFetchWord { State.reset with inputs := { State.reset.inputs with front := .bytes 1 2 3 4 } }
      32 0x00100073).inputs.front = .bytes 0x73 0x00 0x10 0x00 := by decide

/-! ### Witnesses: the hypotheses of each obligation are met -/

theorem witness_EveryStepKeepsLegalSettledOutputs :
    ∃ s s' : State, portsLegal s.ports = false ∧ s.imms ≠ reconstruct s.word ∧ step s = .next s' :=
  ⟨{ State.reset with
      ports := { State.reset.ports with errKind := 3, rd := 7 }
      imms := reconstruct 0xFFFFFFFF }, State.reset, by decide, by decide, rfl⟩

theorem witness_ResultDependsOnlyOnWord :
    ∃ s t s' t' : State, s ≠ t ∧ s.word = t.word ∧ step s = .next s' ∧ step t = .next t' :=
  ⟨State.reset,
    { State.reset with inputs := { State.reset.inputs with front := .bytes 0 0 0 0, resolverRaw := 9 } },
    State.reset,
    { State.reset with
      inputs := { State.reset.inputs with front := .bytes 0 0 0 0, resolverRaw := 9 }
      resolver := { State.reset.resolver with resolved := .ok ⟨9⟩ } },
    by decide, by decide, rfl, rfl⟩

theorem witness_OldOutputsAreForgotten :
    ∃ s t : State, s ≠ t ∧ s.inputs = t.inputs :=
  ⟨State.reset, { State.reset with imms := reconstruct 0xFFFFFFFF }, by decide, rfl⟩

theorem witness_SecondEvaluationChangesNothing :
    ∃ s s' : State, s ≠ s' ∧ step s = .next s' :=
  ⟨{ State.reset with imms := reconstruct 0xFFFFFFFF }, State.reset, by decide, rfl⟩

theorem witness_LanesAreIndependent :
    ∃ (lanes others : List State) (k : Nat) (s t : State), lanes ≠ others ∧ s ≠ t ∧
      lanes[k]? = some s ∧ others[k]? = some t ∧ s.word = t.word :=
  ⟨[State.reset.present 1, State.reset],
    [State.reset.present 2, { State.reset with imms := reconstruct 0xFFFFFFFF }], 1, State.reset,
    { State.reset with imms := reconstruct 0xFFFFFFFF }, by decide, by decide, rfl, rfl, rfl⟩

theorem witness_StepRunsDecodedInstruction :
    decode (State.reset.present 0x00100073).word = .ok ⟨.w32, .ebreak⟩ ∧
    decode State.reset.word = .err (.unrecognizedOpcode 0) := by decide

theorem witness_FetchWordIsPresented :
    State.reset.inputs.front = .word 0 ∧
    ({ State.reset with inputs := { State.reset.inputs with front := .bytes 1 2 3 4 } } : State).inputs.front
      = .bytes 1 2 3 4 := by decide

theorem witness_DecodeOfEncodeGivesVariantBack :
    [Instr.lui ⟨31⟩ 0x80000000, .jal ⟨0⟩ (-1048576), .jal ⟨0⟩ 1048574, .jalr ⟨0⟩ ⟨31⟩ (-2048),
      .beq ⟨0⟩ ⟨31⟩ (-4096), .bgeu ⟨31⟩ ⟨0⟩ 4094, .lb ⟨0⟩ ⟨0⟩ 0x07FF, .lhu ⟨31⟩ ⟨31⟩ 0xF800,
      .sw ⟨0⟩ ⟨0⟩ 2047, .andi ⟨1⟩ ⟨1⟩ (-2048), .srai ⟨1⟩ ⟨1⟩ 31, .and ⟨31⟩ ⟨31⟩ ⟨31⟩, .fence, .mret,
      .csrrci ⟨0⟩ 31 0xFFF].all Instr.wellFormed = true := by decide

theorem witness_EncodeOfDecodeGivesWordBack :
    decode 0xFFFF8F8F = .ok ⟨.w32, .fence⟩ ∧ decode 0xFFFF9F8F = .ok ⟨.w32, .fenceI⟩ ∧
    decode 0xFFF073F3 = .ok ⟨.w32, .csrrci ⟨7⟩ 0 0xFFF⟩ := by decide

theorem witness_OnlyMiscMemWordsHaveIgnoredBits :
    (opcodeOf 0xFFFF8F8F = 0b0001111 ∧
      (0xFFFF8F8F : Word) &&& 0x0000707F = (0x0000000F : Word) &&& 0x0000707F) ∧
    (opcodeOf 0x003100B3 ≠ 0b0001111 ∧ decode 0x003100B3 = .ok ⟨.w32, .add ⟨1⟩ ⟨2⟩ ⟨3⟩⟩) := by decide

theorem witness_DecodedVariantsAreWellFormed :
    decode 0x80052483 = .ok ⟨.w32, .lw ⟨9⟩ ⟨10⟩ 0xF800⟩ := by decide

theorem witness_OpcodeTableDecidesDecode :
    ∃ row ∈ opcodeTable, row.hits 0xFFFF9F8F ∧ row.mnemonic = "FENCE.I" :=
  ⟨⟨"FENCE.I", 0x0000100F, 0x0000707F, 38⟩, by decide, by unfold OpcodeRow.hits; decide, rfl⟩

theorem witness_BundleDeterminesResult :
    bundle (decode 0x00000013) = bundle (.ok ⟨.w32, .addi ⟨0⟩ ⟨0⟩ 0⟩) := by decide

theorem witness_OpcodeClassificationIsTotal :
    classOf (opcodeOf 0x0000007F) = none ∧ classOf (opcodeOf 0x41F35293) = some .opImm ∧
    classOf (opcodeOf 0x00003023) = some .store ∧ classOf (opcodeOf 0x023100B3) = some .op := by decide

theorem witness_NoRegisterIndexIsSpecial :
    (decode 0x000000B7 = .ok ⟨.w32, .lui ⟨1⟩ 0⟩ ∧ carriesRd (Instr.lui ⟨1⟩ 0).tag = true ∧
      (0x000000B7 : Word) &&& 0xFFFFF07F = (0x00000037 : Word) &&& 0xFFFFF07F) ∧
    (decode 0x00008067 = .ok ⟨.w32, .jalr ⟨0⟩ ⟨1⟩ 0⟩ ∧ carriesRs1 (Instr.jalr ⟨0⟩ ⟨1⟩ 0).tag = true ∧
      (0x00008067 : Word) &&& 0xFFF07FFF = (0x000F8067 : Word) &&& 0xFFF07FFF) ∧
    (decode 0x00000023 = .ok ⟨.w32, .sb ⟨0⟩ ⟨0⟩ 0⟩ ∧ carriesRs2 (Instr.sb ⟨0⟩ ⟨0⟩ 0).tag = true ∧
      (0x00000023 : Word) &&& 0xFE0FFFFF = (0x01F00023 : Word) &&& 0xFE0FFFFF) := by decide

theorem witness_CsrNumberIsNeverJudged :
    decode 0x00001073 = .ok ⟨.w32, .csrrw ⟨0⟩ ⟨0⟩ 0⟩ ∧ carriesCsr (Instr.csrrw ⟨0⟩ ⟨0⟩ 0).tag = true ∧
    (0x00001073 : Word) &&& 0x000FFFFF = (0xFFF01073 : Word) &&& 0x000FFFFF := by decide

theorem witness_InvalidRegisterOnlyFromDirectResolve :
    32 ≤ (32#8).toNat ∧ 32 ≤ (255#8).toNat := by decide

theorem witness_FirstFailingCheckDecides :
    classOf (opcodeOf 0xFE00707F) = none ∧
    (classOf (opcodeOf 0x30200073) = some .system ∧ isMarkerWord 0x30200073 = true) ∧
    (isMarkerWord 0x302000F3 = false ∧ funct3Raises .system (funct3Of 0x302000F3) = true) ∧
    (classOf (opcodeOf 0xFE0070B3) = some .op ∧ isMarkerWord 0xFE0070B3 = false ∧
      funct3Raises .op (funct3Of 0xFE0070B3) = false ∧
      funct7Raises .op (funct3Of 0xFE0070B3) (funct7Of 0xFE0070B3) = true) ∧
    (isMarkerWord 0x41F35293 = false ∧ funct3Raises .opImm (funct3Of 0x41F35293) = false ∧
      funct7Raises .opImm (funct3Of 0x41F35293) (funct7Of 0x41F35293) = false) := by decide

theorem witness_ExcludedExtensionWordsRaise :
    (opcodeOf 0x023150B3 = 0b0110011 ∧ funct7Of 0x023150B3 = 0b0000001) ∧
    (opcodeOf 0x00003003 = 0b0000011 ∧ funct3Of 0x00003003 = 0b011) ∧ funct3Of 0x00006003 = 0b110 ∧
    (opcodeOf 0x00003023 = 0b0100011 ∧ funct3Of 0x00003023 = 0b011) ∧
    (opcodeOf 0x42015093 = 0b0010011 ∧ funct3Of 0x42015093 = 0b101 ∧
      funct7Of 0x42015093 = 0b0100001) ∧
    opcodeOf 0x00000053 = 0x53#7 := by decide

theorem witness_OtherSystemWordsRaise :
    opcodeOf 0x10500073 = 0b1110011 ∧ funct3Of 0x10500073 = 0b000 ∧
    (0x10500073 : Word) ≠ 0x00000073 ∧ (0x10500073 : Word) ≠ 0x00100073 ∧
    (0x10500073 : Word) ≠ 0x30200073 := by decide

theorem witness_CompressedLongAndCustomWordsRaise :
    (0x00004501 : Word).extractLsb' 0 2 ≠ 0b11#2 ∧ opcodeOf 0x0000001F = 0x1F#7 ∧
    opcodeOf 0x0000000B = 0x0B#7 := by decide

theorem witness_ResolveAcceptsExactlyUpTo31 :
    (0#8).toNat ≤ 31 ∧ (31#8).toNat ≤ 31 ∧ 31 < (32#8).toNat ∧ 31 < (255#8).toNat := by decide

theorem witness_LoadImmediateIsLowHalfOfI :
    0 ≤ (immI 0x7FF00000).toInt ∧ (immI 0x80000000).toInt < 0 := by decide

theorem witness_WrapperDoesNotChangeDecode :
    ∃ s t s' t' : State, s.inputs.front = .bytes 0 0 0 0 ∧
      t.inputs.front = .word (assemble 0 0 0 0) ∧ step s = .next s' ∧ step t = .next t' :=
  ⟨{ State.reset with inputs := { State.reset.inputs with front := .bytes 0 0 0 0 } }, State.reset,
    { State.reset with inputs := { State.reset.inputs with front := .bytes 0 0 0 0 } }, State.reset,
    rfl, by decide, rfl, rfl⟩

theorem witness_ByteStreamDecodesWordByWord :
    ([0x13, 0, 0] : List Byte).length ≠ 4 ∧ ([0x13, 0, 0] : List Byte).length % 4 ≠ 0 ∧
    ([0x13, 0, 0, 0, 0x73] : List Byte).length ≠ 4 ∧ ([0x13, 0, 0, 0, 0x73] : List Byte).length % 4 ≠ 0 := by decide

theorem witness_UpperImmediateAndJalWordsDecode :
    (0xFFFFFFB7 : Word).extractLsb' 0 7 = 0b0110111#7 ∧
    (0x00000017 : Word).extractLsb' 0 7 = 0b0010111#7 ∧
    (0x8000006F : Word).extractLsb' 0 7 = 0b1101111#7 := by decide

theorem witness_JalrWordsDecode :
    (0xFFF280E7 : Word).extractLsb' 0 7 = 0b1100111#7 ∧ (0xFFF280E7 : Word).extractLsb' 12 3 = 0b000#3 ∧
    (0x00009067 : Word).extractLsb' 0 7 = 0b1100111#7 ∧ (0x00009067 : Word).extractLsb' 12 3 = 0b001#3 ∧
    (0x0000F067 : Word).extractLsb' 0 7 = 0b1100111#7 ∧ (0x0000F067 : Word).extractLsb' 12 3 = 0b111#3 := by decide

theorem witness_BranchWordsDecode :
    (0x80000063 : Word).extractLsb' 0 7 = 0b1100011#7 ∧ (0x80000063 : Word).extractLsb' 12 3 = 0b000#3 ∧
    (0xFE419EE3 : Word).extractLsb' 0 7 = 0b1100011#7 ∧ (0xFE419EE3 : Word).extractLsb' 12 3 = 0b001#3 ∧
    (0x7E62CFE3 : Word).extractLsb' 0 7 = 0b1100011#7 ∧ (0x7E62CFE3 : Word).extractLsb' 12 3 = 0b100#3 ∧
    (0x8083D063 : Word).extractLsb' 0 7 = 0b1100011#7 ∧ (0x8083D063 : Word).extractLsb' 12 3 = 0b101#3 ∧
    (0x00A4E0E3 : Word).extractLsb' 0 7 = 0b1100011#7 ∧ (0x00A4E0E3 : Word).extractLsb' 12 3 = 0b110#3 ∧
    (0xFEC5FFE3 : Word).extractLsb' 0 7 = 0b1100011#7 ∧ (0xFEC5FFE3 : Word).extractLsb' 12 3 = 0b111#3 ∧
    (0x00002063 : Word).extractLsb' 0 7 = 0b1100011#7 ∧ (0x00002063 : Word).extractLsb' 12 3 = 0b010#3 ∧
    (0x00003063 : Word).extractLsb' 0 7 = 0b1100011#7 ∧ (0x00003063 : Word).extractLsb' 12 3 = 0b011#3 := by decide

theorem witness_LoadWordsDecode :
    (0xFFF30283 : Word).extractLsb' 0 7 = 0b0000011#7 ∧ (0xFFF30283 : Word).extractLsb' 12 3 = 0b000#3 ∧
    (0x7FF41383 : Word).extractLsb' 0 7 = 0b0000011#7 ∧ (0x7FF41383 : Word).extractLsb' 12 3 = 0b001#3 ∧
    (0x80052483 : Word).extractLsb' 0 7 = 0b0000011#7 ∧ (0x80052483 : Word).extractLsb' 12 3 = 0b010#3 ∧
    (0x00064583 : Word).extractLsb' 0 7 = 0b0000011#7 ∧ (0x00064583 : Word).extractLsb' 12 3 = 0b100#3 ∧
    (0x06475683 : Word).extractLsb' 0 7 = 0b0000011#7 ∧ (0x06475683 : Word).extractLsb' 12 3 = 0b101#3 ∧
    (0x00003003 : Word).extractLsb' 0 7 = 0b0000011#7 ∧ (0x00003003 : Word).extractLsb' 12 3 = 0b011#3 ∧
    (0x00007003 : Word).extractLsb' 0 7 = 0b0000011#7 ∧ (0x00007003 : Word).extractLsb' 12 3 = 0b111#3 := by decide

theorem witness_StoreWordsDecode :
    (0xFE530FA3 : Word).extractLsb' 0 7 = 0b0100011#7 ∧ (0xFE530FA3 : Word).extractLsb' 12 3 = 0b000#3 ∧
    (0x7E741FA3 : Word).extractLsb' 0 7 = 0b0100011#7 ∧ (0x7E741FA3 : Word).extractLsb' 12 3 = 0b001#3 ∧
    (0x80952023 : Word).extractLsb' 0 7 = 0b0100011#7 ∧ (0x80952023 : Word).extractLsb' 12 3 = 0b010#3 ∧
    (0x00003023 : Word).extractLsb' 0 7 = 0b0100011#7 ∧ (0x00003023 : Word).extractLsb' 12 3 = 0b011#3 ∧
    (0x00007023 : Word).extractLsb' 0 7 = 0b0100011#7 ∧ (0x00007023 : Word).extractLsb' 12 3 = 0b111#3 := by decide

theorem witness_OpImmWordsDecode :
    (0x00000013 : Word).extractLsb' 0 7 = 0b0010011#7 ∧ (0x00000013 : Word).extractLsb' 12 3 = 0b000#3 ∧
    (0x0051A113 : Word).extractLsb' 0 7 = 0b0010011#7 ∧ (0x0051A113 : Word).extractLsb' 12 3 = 0b010#3 ∧
    (0xFFF2B213 : Word).extractLsb' 0 7 = 0b0010011#7 ∧ (0xFFF2B213 : Word).extractLsb' 12 3 = 0b011#3 ∧
    (0xFFF3C313 : Word).extractLsb' 0 7 = 0b0010011#7 ∧ (0xFFF3C313 : Word).extractLsb' 12 3 = 0b100#3 ∧
    (0x7FF4E413 : Word).extractLsb' 0 7 = 0b0010011#7 ∧ (0x7FF4E413 : Word).extractLsb' 12 3 = 0b110#3 ∧
    (0x0FF5F513 : Word).extractLsb' 0 7 = 0b0010011#7 ∧ (0x0FF5F513 : Word).extractLsb' 12 3 = 0b111#3 := by decide

theorem witness_OpImmWordsDecode_shifts :
    (0x01F11093 : Word).extractLsb' 0 7 = 0b0010011#7 ∧ (0x01F11093 : Word).extractLsb' 12 3 = 0b001#3 ∧
    (0x01F11093 : Word).extractLsb' 25 7 = 0b0000000#7 ∧
    (0x02011093 : Word).extractLsb' 0 7 = 0b0010011#7 ∧ (0x02011093 : Word).extractLsb' 12 3 = 0b001#3 ∧
    (0x02011093 : Word).extractLsb' 25 7 = 0b0000001#7 ∧
    (0x00025193 : Word).extractLsb' 0 7 = 0b0010011#7 ∧ (0x00025193 : Word).extractLsb' 12 3 = 0b101#3 ∧
    (0x00025193 : Word).extractLsb' 25 7 = 0b0000000#7 ∧
    (0x41F35293 : Word).extractLsb' 0 7 = 0b0010011#7 ∧ (0x41F35293 : Word).extractLsb' 12 3 = 0b101#3 ∧
    (0x41F35293 : Word).extractLsb' 25 7 = 0b0100000#7 ∧
    (0x60015093 : Word).extractLsb' 0 7 = 0b0010011#7 ∧ (0x60015093 : Word).extractLsb' 12 3 = 0b101#3 ∧
    (0x60015093 : Word).extractLsb' 25 7 = 0b0110000#7 := by decide

theorem witness_OpWordsDecode :
    (0x003100B3 : Word).extractLsb' 0 7 = 0b0110011#7 ∧ (0x003100B3 : Word).extractLsb' 12 3 = 0b000#3 ∧
    (0x003100B3 : Word).extractLsb' 25 7 = 0b0000000#7 ∧
    (0x40628233 : Word).extractLsb' 0 7 = 0b0110011#7 ∧ (0x40628233 : Word).extractLsb' 12 3 = 0b000#3 ∧
    (0x40628233 : Word).extractLsb' 25 7 = 0b0100000#7 ∧
    (0x009413B3 : Word).extractLsb' 0 7 = 0b0110011#7 ∧ (0x009413B3 : Word).extractLsb' 12 3 = 0b001#3 ∧
    (0x009413B3 : Word).extractLsb' 25 7 = 0b0000000#7 ∧
    (0x00C5A533 : Word).extractLsb' 0 7 = 0b0110011#7 ∧ (0x00C5A533 : Word).extractLsb' 12 3 = 0b010#3 ∧
    (0x00C5A533 : Word).extractLsb' 25 7 = 0b0000000#7 ∧
    (0x00F736B3 : Word).extractLsb' 0 7 = 0b0110011#7 ∧ (0x00F736B3 : Word).extractLsb' 12 3 = 0b011#3 ∧
    (0x00F736B3 : Word).extractLsb' 25 7 = 0b0000000#7 ∧
    (0x0128C833 : Word).extractLsb' 0 7 = 0b0110011#7 ∧ (0x0128C833 : Word).extractLsb' 12 3 = 0b100#3 ∧
    (0x0128C833 : Word).extractLsb' 25 7 = 0b0000000#7 := by decide

theorem witness_OpWordsDecode_more :
    (0x015A59B3 : Word).extractLsb' 0 7 = 0b0110011#7 ∧ (0x015A59B3 : Word).extractLsb' 12 3 = 0b101#3 ∧
    (0x015A59B3 : Word).extractLsb' 25 7 = 0b0000000#7 ∧
    (0x418BDB33 : Word).extractLsb' 0 7 = 0b0110011#7 ∧ (0x418BDB33 : Word).extractLsb' 12 3 = 0b101#3 ∧
    (0x418BDB33 : Word).extractLsb' 25 7 = 0b0100000#7 ∧
    (0x01BD6CB3 : Word).extractLsb' 0 7 = 0b0110011#7 ∧ (0x01BD6CB3 : Word).extractLsb' 12 3 = 0b110#3 ∧
    (0x01BD6CB3 : Word).extractLsb' 25 7 = 0b0000000#7 ∧
    (0x01EEFE33 : Word).extractLsb' 0 7 = 0b0110011#7 ∧ (0x01EEFE33 : Word).extractLsb' 12 3 = 0b111#3 ∧
    (0x01EEFE33 : Word).extractLsb' 25 7 = 0b0000000#7 ∧
    (0x023150B3 : Word).extractLsb' 0 7 = 0b0110011#7 ∧ (0x023150B3 : Word).extractLsb' 12 3 = 0b101#3 ∧
    (0x023150B3 : Word).extractLsb' 25 7 = 0b0000001#7 ∧
    (0x403170B3 : Word).extractLsb' 0 7 = 0b0110011#7 ∧ (0x403170B3 : Word).extractLsb' 12 3 = 0b111#3 ∧
    (0x403170B3 : Word).extractLsb' 25 7 = 0b0100000#7 := by decide

theorem witness_MiscMemWordsDecode :
    (0xFFFF8F8F : Word).extractLsb' 0 7 = 0b0001111#7 ∧ (0xFFFF8F8F : Word).extractLsb' 12 3 = 0b000#3 ∧
    (0xFFFF9F8F : Word).extractLsb' 0 7 = 0b0001111#7 ∧ (0xFFFF9F8F : Word).extractLsb' 12 3 = 0b001#3 ∧
    (0x0000200F : Word).extractLsb' 0 7 = 0b0001111#7 ∧ (0x0000200F : Word).extractLsb' 12 3 = 0b010#3 ∧
    (0x0000700F : Word).extractLsb' 0 7 = 0b0001111#7 ∧ (0x0000700F : Word).extractLsb' 12 3 = 0b111#3 := by decide

theorem witness_SystemWordsDecode :
    [0x10500073, 0x302000F3, 0x00004073, 0x00001073].all (fun w : Word =>
      w.extractLsb' 0 7 == 0b1110011#7 && !isMarkerWord w) = true ∧
    (0x10500073 : Word).extractLsb' 12 3 = 0b000#3 ∧ (0x00004073 : Word).extractLsb' 12 3 = 0b100#3 ∧
    (0x00001073 : Word).extractLsb' 12 3 ≠ 0b000#3 ∧ (0x00001073 : Word).extractLsb' 12 3 ≠ 0b100#3 := by decide

theorem witness_CsrWordsDecode :
    (0x300110F3 : Word).extractLsb' 0 7 = 0b1110011#7 ∧ (0x300110F3 : Word).extractLsb' 12 3 = 0b001#3 ∧
    (0xC00021F3 : Word).extractLsb' 0 7 = 0b1110011#7 ∧ (0xC00021F3 : Word).extractLsb' 12 3 = 0b010#3 ∧
    (0x3442B273 : Word).extractLsb' 0 7 = 0b1110011#7 ∧ (0x3442B273 : Word).extractLsb' 12 3 = 0b011#3 ∧
    (0x305FD073 : Word).extractLsb' 0 7 = 0b1110011#7 ∧ (0x305FD073 : Word).extractLsb' 12 3 = 0b101#3 ∧
    (0x30046373 : Word).extractLsb' 0 7 = 0b1110011#7 ∧ (0x30046373 : Word).extractLsb' 12 3 = 0b110#3 ∧
    (0xFFF073F3 : Word).extractLsb' 0 7 = 0b1110011#7 ∧ (0xFFF073F3 : Word).extractLsb' 12 3 = 0b111#3 := by decide

theorem witness_PseudoInstructionsDecodeToExpansion :
    (-2048 ≤ (0xFFFFF800 : BitVec 32).toInt ∧ (0xFFFFF800 : BitVec 32).toInt ≤ 2047) ∧
    (-2048 ≤ (0x000007FF : BitVec 32).toInt ∧ (0x000007FF : BitVec 32).toInt ≤ 2047) ∧
    (0xFFFFF7FF : BitVec 32).toInt < -2048 ∧ 2047 < (0x00000800 : BitVec 32).toInt ∧
    immBOk (-4096) = true ∧ immBOk 4094 = true ∧ immJOk (-1048576) = true ∧ immJOk 1048574 = true := by decide

theorem witness_IAndSImmediateBits :
    0 < 11 ∧ 10 < 11 ∧ (11 ≤ 11 ∧ 11 < 32) ∧ (11 ≤ 31 ∧ 31 < 32) ∧ 4 < 5 ∧ (5 ≤ 5 ∧ 5 < 11) ∧
    (5 ≤ 10 ∧ 10 < 11) := by decide

theorem witness_BranchUpperJumpImmediateBits :
    (1 ≤ 1 ∧ 1 < 5) ∧ (1 ≤ 4 ∧ 4 < 5) ∧ (5 ≤ 10 ∧ 10 < 11) ∧ (12 ≤ 31 ∧ 31 < 32) ∧ 11 < 12 ∧
    (12 ≤ 19 ∧ 19 < 20) ∧ (20 ≤ 20 ∧ 20 < 32) := by decide

theorem witness_WrapperAssemblesLittleEndian :
    0 < 8 ∧ 7 < 8 ∧
    ({ State.reset with inputs := { State.reset.inputs with front := .bytes 1 2 3 4 } } : State).inputs.front
      = .bytes 1 2 3 4 := by decide

theorem witness_ToIndexInvertsResolve :
    (0#8).toNat ≤ 31 ∧ (31#8).toNat ≤ 31 := by decide

end Sys2Proof.Tests
end

/-! ## Proofs of the family 10_state

What `decode` can answer (its variants are well formed, its error ports are legal), one equation for
`step`, and from these the statements about the whole machine; then how a bundle gives its result
back, which ports read which bits of the word, the resolver, the wrapper and the drives. -/

namespace Sys2Proof
open Machine

/-! ### Decoded variants and raised errors are in range -/

/-- Every variant `decode` answers holds field values its format can express (R101). -/
theorem wellFormed_of_decode {w : Word} {ins : Instruction} (h : decode w = .ok ins) :
    ins.operation.wellFormed = true := by
  have hcase := decode_cases w
  rw [h] at hcase
  cases hcase
  case lui | auipc => all_goals exact immU_ok w
  case jal => exact immJ_ok w
  case beq | bne | blt | bge | bltu | bgeu => all_goals exact immB_ok w
  case lb | lh | lw | lbu | lhu => all_goals exact immL_ok w
  case sb | sh | sw => all_goals exact immS_ok w
  case jalr | addi | slti | sltiu | xori | ori | andi => all_goals exact immI_ok w
  all_goals rfl

/-- Settles O15: the reconstructor's six values are in the ranges of R101. -/
theorem decodedVariantsAreWellFormed : Obligations.DecodedVariantsAreWellFormed := by
  intro w ins h
  exact ⟨rfl, wellFormed_of_decode h⟩

/-- Only OP and OP-IMM words check funct7 (R303). -/
theorem op_or_opImm_of_funct7Raises {c : OpcodeClass} {f3 : BitVec 3} {f7 : BitVec 7}
    (h : funct7Raises c f3 f7 = true) : c = .op ∨ c = .opImm := by
  cases c <;> simp_all [funct7Raises]

theorem portsLegal_unrecognizedOpcode {o : BitVec 7} (h : classOf o = none) :
    portsLegal (errPorts (.unrecognizedOpcode o)) = true := by
  simp [portsLegal, errPorts, errPortsLegal, errorKind, errorFirst, errorSecond, h]
  omega

theorem portsLegal_invalidFunct3 {o : BitVec 7} {c : OpcodeClass} {f3 : BitVec 3}
    (hc : classOf o = some c) (h : funct3Raises c f3 = true) :
    portsLegal (errPorts (.invalidFunct3 o f3)) = true := by
  simp [portsLegal, errPorts, errPortsLegal, errorKind, errorFirst, errorSecond, hc, h]
  omega

theorem portsLegal_invalidFunct7 {c : OpcodeClass} {f3 : BitVec 3} {f7 : BitVec 7}
    (h : funct7Raises c f3 f7 = true) :
    portsLegal (errPorts (.invalidFunct7 f3 f7)) = true := by
  obtain rfl | rfl := op_or_opImm_of_funct7Raises h <;>
    simp [portsLegal, errPorts, errPortsLegal, errorKind, errorFirst, errorSecond, h] <;> omega

/-- The bundle of every word's result is legal (R32, R34, R35, R101). -/
theorem portsLegal_bundle_decode (w : Word) : portsLegal (bundle (decode w)) = true := by
  cases h : decode w with
  | ok ins => exact portsLegal_bundle_ok (wellFormed_of_decode h)
  | err e =>
    have hcase := decode_cases w
    rw [h] at hcase
    cases hcase with
    | unrecognized hc => exact portsLegal_unrecognizedOpcode hc
    | funct3 c hc _ hf => exact portsLegal_invalidFunct3 hc hf
    | funct7 c _ _ _ hf => exact portsLegal_invalidFunct7 hf

/-! ### One equation for the step -/

/-- A step leaves the inputs and shows the block's function of them on every output. -/
theorem step_eq (s : State) : step s = .next
    { inputs := s.inputs, ports := bundle (decode s.word), imms := reconstruct s.word,
      resolver := resolverOut s.inputs } := by
  unfold step
  cases decode s.word with
  | ok ins => exact exec_eq ins.operation s.settleSubBlocks
  | err e => exact raise_eq e s.settleSubBlocks

/-- The one next state of a step. -/
theorem eq_of_step {s s' : State} (h : step s = .next s') : s' =
    { inputs := s.inputs, ports := bundle (decode s.word), imms := reconstruct s.word,
      resolver := resolverOut s.inputs } := by
  rw [step_eq] at h
  exact (Host.Outcome.next.inj h).symm

/-- Settles O1: a decoded variant's meaning drives its bundle (`exec_eq`), an error its own. -/
theorem stepShowsDecodeOfPresentedWord : Obligations.StepShowsDecodeOfPresentedWord :=
  step_eq

/-- Settles O2: the next state is the block's function of the inputs, whatever the outputs were, and
the bundle of every word's result is legal. -/
theorem everyStepKeepsLegalSettledOutputs : Obligations.EveryStepKeepsLegalSettledOutputs := by
  intro s s' h
  obtain rfl := eq_of_step h
  exact ⟨portsLegal_bundle_decode s.word, rfl, rfl, rfl⟩

/-- Settles O5: both next states are the block's function of the same word. -/
theorem resultDependsOnlyOnWord : Obligations.ResultDependsOnlyOnWord := by
  intro s t s' t' hw hs ht
  obtain rfl := eq_of_step hs
  obtain rfl := eq_of_step ht
  exact ⟨congrArg (bundle ∘ decode) hw, congrArg reconstruct hw⟩

/-- Settles O6: the word and the resolver's arguments are inputs, and a step reads nothing else. -/
theorem oldOutputsAreForgotten : Obligations.OldOutputsAreForgotten := by
  intro s t h
  rw [step_eq, step_eq, State.word, State.word, h]

/-- Settles O9: lane k of a group makes its own step, and its result is that of its word (O5). -/
theorem lanesAreIndependent : Obligations.LanesAreIndependent := by
  intro lanes others k s t hs ht hw
  refine ⟨_, _, ?_, ?_, resultDependsOnlyOnWord s t _ _ hw (step_eq s) (step_eq t)⟩
  · simp [stepLanes, hs, step_eq]
  · simp [stepLanes, ht, step_eq]

/-- Settles O11: presenting a word keeps the front's kind; lane k of a word is its bits 8k+7 .. 8k. -/
theorem fetchWordIsPresented : Obligations.FetchWordIsPresented := by
  intro s nbits w
  refine ⟨present_word _ s, fun v hv => ?_, fun b0 b1 b2 b3 hb => ?_, rfl, rfl, rfl, rfl, rfl, rfl⟩
  · rw [State.withFetchWord, present_front, hv]; rfl
  · rw [State.withFetchWord, present_front, hb]; rfl

/-! ### The bundle determines the result -/

/-- The 48 variants in the order of their tags, each with its fields read off the ports. -/
def variantsOnPorts (p : Ports) : List Instr :=
  let rd : Register := ⟨p.rd⟩
  let rs1 : Register := ⟨p.rs1⟩
  let rs2 : Register := ⟨p.rs2⟩
  let imm16 : BitVec 16 := p.imm.setWidth 16
  [.lui rd p.imm, .auipc rd p.imm, .jal rd p.imm, .jalr rd rs1 p.imm,
   .beq rs1 rs2 p.imm, .bne rs1 rs2 p.imm, .blt rs1 rs2 p.imm, .bge rs1 rs2 p.imm,
   .bltu rs1 rs2 p.imm, .bgeu rs1 rs2 p.imm,
   .lb rd rs1 imm16, .lh rd rs1 imm16, .lw rd rs1 imm16, .lbu rd rs1 imm16, .lhu rd rs1 imm16,
   .sb rs1 rs2 p.imm, .sh rs1 rs2 p.imm, .sw rs1 rs2 p.imm,
   .addi rd rs1 p.imm, .slti rd rs1 p.imm, .sltiu rd rs1 p.imm, .xori rd rs1 p.imm,
   .ori rd rs1 p.imm, .andi rd rs1 p.imm,
   .slli rd rs1 p.shamt, .srli rd rs1 p.shamt, .srai rd rs1 p.shamt,
   .add rd rs1 rs2, .sub rd rs1 rs2, .sll rd rs1 rs2, .slt rd rs1 rs2, .sltu rd rs1 rs2,
   .xor rd rs1 rs2, .srl rd rs1 rs2, .sra rd rs1 rs2, .or rd rs1 rs2, .and rd rs1 rs2,
   .fence, .fenceI, .ecall, .ebreak, .mret,
   .csrrw rd rs1 p.csr, .csrrs rd rs1 p.csr, .csrrc rd rs1 p.csr,
   .csrrwi rd p.zimm p.csr, .csrrsi rd p.zimm p.csr, .csrrci rd p.zimm p.csr]

/-- A variant's own bundle gives it back at its tag: no field is lost on the ports. -/
theorem variantsOnPorts_bundle (i : Instr) :
    (variantsOnPorts (bundle (.ok ⟨.w32, i⟩)))[(bundle (.ok ⟨.w32, i⟩)).op.toNat]? = some i := by
  cases i
  case lb rd rs1 v | lh rd rs1 v | lw rd rs1 v | lbu rd rs1 v | lhu rd rs1 v =>
    all_goals
      conv_rhs => rw [← (zeros_append_imm16 v).2]
      rfl
  all_goals rfl

/-- The error of each kind code (D9), with its payloads read off the error ports. -/
def errorOnPorts (p : Ports) : DecodeError :=
  if p.errKind = 0 then .unrecognizedOpcode (p.errA.setWidth 7)
  else if p.errKind = 1 then .invalidFunct3 (p.errA.setWidth 7) (p.errB.setWidth 3)
  else if p.errKind = 2 then .invalidFunct7 (p.errA.setWidth 3) (p.errB.setWidth 7)
  else .invalidRegister p.errA

/-- An error's own ports give it back. -/
theorem errorOnPorts_errPorts (e : DecodeError) : errorOnPorts (errPorts e) = e := by
  cases e <;> simp [errorOnPorts, errPorts, errorKind, errorFirst, errorSecond]

/-- Settles O17: port `ok` tells success from error, and each result can be read back off its ports. -/
theorem bundleDeterminesResult : Obligations.BundleDeterminesResult := by
  intro r r' h
  cases r with
  | ok ins =>
    cases r' with
    | ok ins' =>
      obtain ⟨⟨⟩, i⟩ := ins
      obtain ⟨⟨⟩, i'⟩ := ins'
      have hi := variantsOnPorts_bundle i
      rw [h, variantsOnPorts_bundle i'] at hi
      rw [Option.some.inj hi]
    | err e => exact absurd (show 1#1 = 0#1 from congrArg Ports.ok h) (by decide)
  | err e =>
    cases r' with
    | ok ins => exact absurd (show 0#1 = 1#1 from congrArg Ports.ok h) (by decide)
    | err e' =>
      have he : errPorts e = errPorts e' := h
      rw [← errorOnPorts_errPorts e, he, errorOnPorts_errPorts]

/-! ### The ports of a decoded word, by its tag and fields -/

/-- The immediate a variant with this tag takes from the word, as the imm port shows it (R31, R35). -/
def immOfTag (t : BitVec 6) (w : Word) : BitVec 32 :=
  if tagIn t 0 1 then immU w
  else if tagIn t 2 2 then immJ w
  else if tagIn t 4 9 then immB w
  else if tagIn t 10 14 then 0#16 ++ immL w
  else if tagIn t 15 17 then immS w
  else if tagIn t 3 3 || tagIn t 18 23 then immI w
  else 0

/-- The success bundle of a tag: each port is the word's field where the tag carries it, else 0. -/
def portsOfTag (t : BitVec 6) (w : Word) : Ports where
  ok := 1
  width := 0
  op := t
  rd := if carriesRd t then rdOf w else 0
  rs1 := if carriesRs1 t then rs1Of w else 0
  rs2 := if carriesRs2 t then rs2Of w else 0
  imm := immOfTag t w
  shamt := if carriesShamt t then shamtOf w else 0
  zimm := if carriesZimm t then zimmOf w else 0
  csr := if carriesCsr t then csrOf w else 0
  errKind := 0
  errA := 0
  errB := 0

/-- The bundle of a decoded word is its tag's bundle, filled from its own fields. -/
theorem bundle_of_decode {w : Word} {i : Instr} (h : decode w = .ok ⟨.w32, i⟩) :
    bundle (.ok ⟨.w32, i⟩) = portsOfTag i.tag w := by
  have hcase := decode_cases w
  rw [h] at hcase
  cases hcase <;> rfl

/-! ### The tag depends on opcode, funct3 and funct7 alone -/

/-- A word with the same opcode and funct3, and the same funct7 where the variant's check reads it
(R83), decodes to the same variant up to operands; the markers, compared whole, are left out. -/
theorem exists_decode_of_same_selectors {w w' : Word} {i : Instr} (h : decode w = .ok ⟨.w32, i⟩)
    (hm : tagIn i.tag 39 41 = false) (ho : opcodeOf w' = opcodeOf w)
    (h3 : funct3Of w' = funct3Of w) (h7 : tagIn i.tag 24 36 = true → funct7Of w' = funct7Of w) :
    ∃ i', decode w' = .ok ⟨.w32, i'⟩ ∧ i'.tag = i.tag := by
  have hcase := decode_cases w
  rw [h] at hcase
  cases hcase
  case lui hop =>
    rw [decode_of_code (c := .lui) (ho.trans hop)]
    simp only [handler, decodeLui, withReg_eq, emitOk_eq]
    exact ⟨_, rfl, rfl⟩
  case auipc hop =>
    rw [decode_of_code (c := .auipc) (ho.trans hop)]
    simp only [handler, decodeAuipc, withReg_eq, emitOk_eq]
    exact ⟨_, rfl, rfl⟩
  case jal hop =>
    rw [decode_of_code (c := .jal) (ho.trans hop)]
    simp only [handler, decodeJal, withReg_eq, emitOk_eq]
    exact ⟨_, rfl, rfl⟩
  case jalr hop hf3 =>
    rw [decode_of_code (c := .jalr) (ho.trans hop)]
    simp only [handler, decodeJalr, h3, hf3, withReg_eq, emitOk_eq]
    exact ⟨_, rfl, rfl⟩
  case beq hop hf3 | bne hop hf3 | blt hop hf3 | bge hop hf3 | bltu hop hf3 | bgeu hop hf3 =>
    all_goals
      rw [decode_of_code (c := .branch) (ho.trans hop)]
      simp only [handler, decodeBranch, h3, hf3, withReg_eq, emitOk_eq]
      exact ⟨_, rfl, rfl⟩
  case lb hop hf3 | lh hop hf3 | lw hop hf3 | lbu hop hf3 | lhu hop hf3 =>
    all_goals
      rw [decode_of_code (c := .load) (ho.trans hop)]
      simp only [handler, decodeLoad, h3, hf3, withReg_eq, emitOk_eq]
      exact ⟨_, rfl, rfl⟩
  case sb hop hf3 | sh hop hf3 | sw hop hf3 =>
    all_goals
      rw [decode_of_code (c := .store) (ho.trans hop)]
      simp only [handler, decodeStore, h3, hf3, withReg_eq, emitOk_eq]
      exact ⟨_, rfl, rfl⟩
  case addi hop hf3 | slti hop hf3 | sltiu hop hf3 | xori hop hf3 | ori hop hf3 | andi hop hf3 =>
    all_goals
      rw [decode_of_code (c := .opImm) (ho.trans hop)]
      simp only [handler, decodeOpImm, h3, hf3, withReg_eq, emitOk_eq]
      exact ⟨_, rfl, rfl⟩
  case slli hop hf3 hf7 | srli hop hf3 hf7 | srai hop hf3 hf7 =>
    all_goals
      rw [decode_of_code (c := .opImm) (ho.trans hop)]
      simp only [handler, decodeOpImm, h3, hf3, h7 rfl, hf7, withReg_eq, emitOk_eq]
      exact ⟨_, rfl, rfl⟩
  case add hop hf3 hf7 | sub hop hf3 hf7 | sll hop hf3 hf7 | slt hop hf3 hf7 | sltu hop hf3 hf7
      | xor hop hf3 hf7 | srl hop hf3 hf7 | sra hop hf3 hf7 | or hop hf3 hf7 | and hop hf3 hf7 =>
    all_goals
      rw [decode_of_code (c := .op) (ho.trans hop)]
      simp only [handler, decodeOp, h3, hf3, h7 rfl, hf7, withReg_eq, emitOk_eq]
      exact ⟨_, rfl, rfl⟩
  case fence hop hf3 | fenceI hop hf3 =>
    all_goals
      rw [decode_of_code (c := .miscMem) (ho.trans hop)]
      simp only [handler, decodeMiscMem, h3, hf3, emitOk_eq]
      exact ⟨_, rfl, rfl⟩
  case ecall | ebreak | mret => all_goals exact absurd hm (by decide)
  case csrrw hop hf3 | csrrs hop hf3 | csrrc hop hf3 | csrrwi hop hf3 | csrrsi hop hf3
      | csrrci hop hf3 =>
    all_goals
      rw [decode_system (ne_markers (by rw [h3, hf3]; decide)) (ho.trans hop), h3, hf3]
      exact ⟨_, rfl, rfl⟩

/-! ### Words that agree under a mask -/

/-- Words that agree under a mask agree on every bit range the mask covers. -/
theorem extractLsb'_eq_of_and_eq {w w' m : Word} (h : w &&& m = w' &&& m) (lo n : Nat)
    (hm : m.extractLsb' lo n = BitVec.allOnes n) :
    w.extractLsb' lo n = w'.extractLsb' lo n := by
  have he := congrArg (BitVec.extractLsb' lo n) h
  rwa [BitVec.extractLsb'_and, BitVec.extractLsb'_and, hm, BitVec.and_allOnes,
    BitVec.and_allOnes] at he

/-- Agreement under a mask is agreement under every mask it covers. -/
theorem and_eq_of_covers {w w' m : Word} (h : w &&& m = w' &&& m) (m' : Word)
    (hm : m &&& m' = m') : w &&& m' = w' &&& m' := by
  rw [← hm, ← BitVec.and_assoc, h, BitVec.and_assoc]

/-- The I- and L-immediates read word[31:20] (R74, R75). -/
theorem immI_immL_eq_of_and_eq {w w' : Word} (h : w &&& 0xFFF00000 = w' &&& 0xFFF00000) :
    immI w = immI w' ∧ immL w = immL w' := by
  have hI : immI w = immI w' := by
    rw [immI, immI, extractLsb'_eq_of_and_eq h 20 12 (by decide)]
  exact ⟨hI, by rw [immL, immL, hI]⟩

/-- The S- and B-immediates read word[31:25] and word[11:7] (R76, R77). -/
theorem immS_immB_eq_of_and_eq {w w' : Word} (h : w &&& 0xFE000F80 = w' &&& 0xFE000F80) :
    immS w = immS w' ∧ immB w = immB w' := by
  have he := extractLsb'_eq_of_and_eq h
  refine ⟨?_, ?_⟩
  · rw [immS, immS, he 25 7 (by decide), he 7 5 (by decide)]
  · rw [immB, immB, he 31 1 (by decide), he 7 1 (by decide), he 25 6 (by decide),
      he 8 4 (by decide)]

/-- The U- and J-immediates read word[31:12] (R78, R79). -/
theorem immU_immJ_eq_of_and_eq {w w' : Word} (h : w &&& 0xFFFFF000 = w' &&& 0xFFFFF000) :
    immU w = immU w' ∧ immJ w = immJ w' := by
  have he := extractLsb'_eq_of_and_eq h
  refine ⟨?_, ?_⟩
  · rw [immU, immU, he 12 20 (by decide)]
  · rw [immJ, immJ, he 31 1 (by decide), he 12 8 (by decide), he 20 1 (by decide),
      he 21 10 (by decide)]

/-! ### Which fields share bits with a register or the CSR number (R31, R70) -/

/-- A variant with an rd is no marker and has no S- or B-immediate, which lie on rd's bits. -/
theorem tagIn_of_carriesRd : ∀ t : BitVec 6, carriesRd t = true →
    tagIn t 39 41 = false ∧ tagIn t 4 9 = false ∧ tagIn t 15 17 = false := by
  decide

/-- A variant with an rs1 is no marker and has no zimm, U- or J-immediate, which lie on rs1's bits. -/
theorem tagIn_of_carriesRs1 : ∀ t : BitVec 6, carriesRs1 t = true →
    tagIn t 39 41 = false ∧ carriesZimm t = false ∧ tagIn t 0 1 = false ∧ tagIn t 2 2 = false := by
  decide

/-- A variant with an rs2 is no marker and has only an S- or B-immediate beside it, no shamt and no
CSR number. -/
theorem tagIn_of_carriesRs2 : ∀ t : BitVec 6, carriesRs2 t = true →
    tagIn t 39 41 = false ∧ carriesShamt t = false ∧ carriesCsr t = false ∧ tagIn t 0 1 = false ∧
    tagIn t 2 2 = false ∧ tagIn t 10 14 = false ∧ tagIn t 3 3 = false ∧ tagIn t 18 23 = false := by
  decide

/-- A CSR variant is no marker, checks no funct7 and has no rs2 or shamt. -/
theorem tagIn_of_carriesCsr : ∀ t : BitVec 6, carriesCsr t = true →
    tagIn t 39 41 = false ∧ tagIn t 24 36 = false ∧ carriesRs2 t = false ∧
    carriesShamt t = false := by
  decide

/-- A CSR variant has no immediate. -/
theorem immOfTag_of_carriesCsr {t : BitVec 6} (ht : carriesCsr t = true) (w : Word) :
    immOfTag t w = 0 := by
  have hle : 42 ≤ t.toNat := by simp_all [carriesCsr, tagIn]
  simp only [immOfTag, tagIn, Bool.and_eq_true, Bool.or_eq_true, decide_eq_true_eq]
  repeat rw [if_neg (by omega)]

theorem portsOfTag_replace_rd {t : BitVec 6} (ht : carriesRd t = true) {w w' : Word}
    (h : w &&& 0xFFFFF07F = w' &&& 0xFFFFF07F) :
    portsOfTag t w' = { portsOfTag t w with rd := rdOf w' } := by
  obtain ⟨-, hB, hS⟩ := tagIn_of_carriesRd t ht
  obtain ⟨hI, hL⟩ := immI_immL_eq_of_and_eq (and_eq_of_covers h _ (by decide))
  obtain ⟨hU, hJ⟩ := immU_immJ_eq_of_and_eq (and_eq_of_covers h _ (by decide))
  have he := extractLsb'_eq_of_and_eq h
  simp only [portsOfTag, immOfTag, ht, hB, hS, hI, hL, hU, hJ, if_true, Bool.false_eq_true, if_false,
    rs1Of, rs2Of, shamtOf, zimmOf, csrOf, he 15 5 (by decide), he 20 5 (by decide),
    he 20 12 (by decide)]

theorem portsOfTag_replace_rs1 {t : BitVec 6} (ht : carriesRs1 t = true) {w w' : Word}
    (h : w &&& 0xFFF07FFF = w' &&& 0xFFF07FFF) :
    portsOfTag t w' = { portsOfTag t w with rs1 := rs1Of w' } := by
  obtain ⟨-, hZ, hU, hJ⟩ := tagIn_of_carriesRs1 t ht
  obtain ⟨hI, hL⟩ := immI_immL_eq_of_and_eq (and_eq_of_covers h _ (by decide))
  obtain ⟨hS, hB⟩ := immS_immB_eq_of_and_eq (and_eq_of_covers h _ (by decide))
  have he := extractLsb'_eq_of_and_eq h
  simp only [portsOfTag, immOfTag, ht, hZ, hU, hJ, hI, hL, hS, hB, if_true, Bool.false_eq_true,
    if_false, rdOf, rs2Of, shamtOf, csrOf, he 7 5 (by decide), he 20 5 (by decide),
    he 20 12 (by decide)]

theorem portsOfTag_replace_rs2 {t : BitVec 6} (ht : carriesRs2 t = true) {w w' : Word}
    (h : w &&& 0xFE0FFFFF = w' &&& 0xFE0FFFFF) :
    portsOfTag t w' = { portsOfTag t w with rs2 := rs2Of w' } := by
  obtain ⟨-, hShamt, hCsr, hU, hJ, hL, hJalr, hI⟩ := tagIn_of_carriesRs2 t ht
  obtain ⟨hS, hB⟩ := immS_immB_eq_of_and_eq (and_eq_of_covers h _ (by decide))
  have he := extractLsb'_eq_of_and_eq h
  simp only [portsOfTag, immOfTag, ht, hShamt, hCsr, hU, hJ, hL, hJalr, hI, hS, hB, if_true,
    Bool.false_eq_true, if_false, Bool.or_false, rdOf, rs1Of, zimmOf, he 7 5 (by decide),
    he 15 5 (by decide)]

theorem portsOfTag_replace_csr {t : BitVec 6} (ht : carriesCsr t = true) {w w' : Word}
    (h : w &&& 0x000FFFFF = w' &&& 0x000FFFFF) :
    portsOfTag t w' = { portsOfTag t w with csr := csrOf w' } := by
  obtain ⟨-, -, hRs2, hShamt⟩ := tagIn_of_carriesCsr t ht
  have he := extractLsb'_eq_of_and_eq h
  simp only [portsOfTag, ht, hRs2, hShamt, immOfTag_of_carriesCsr ht, if_true,
    Bool.false_eq_true, if_false, rdOf, rs1Of, zimmOf, he 7 5 (by decide), he 15 5 (by decide)]

/-- Two words with the same selectors, read off the ports: the same tag, each word's own fields. -/
theorem exists_decode_bundle_eq {w w' m : Word} {i : Instr} (h : decode w = .ok ⟨.w32, i⟩)
    (hm : tagIn i.tag 39 41 = false) (hw : w &&& m = w' &&& m)
    (hsel : m &&& 0x0000707F = 0x0000707F)
    (h7 : tagIn i.tag 24 36 = true → m.extractLsb' 25 7 = BitVec.allOnes 7) {p : Ports}
    (hp : portsOfTag i.tag w' = p) :
    ∃ i', decode w' = .ok ⟨.w32, i'⟩ ∧ bundle (.ok ⟨.w32, i'⟩) = p := by
  have he := extractLsb'_eq_of_and_eq (and_eq_of_covers hw _ hsel)
  obtain ⟨i', hi', htag⟩ := exists_decode_of_same_selectors h hm (he 0 7 (by decide)).symm
    (he 12 3 (by decide)).symm (fun ht => (extractLsb'_eq_of_and_eq hw 25 7 (h7 ht)).symm)
  exact ⟨i', hi', by rw [bundle_of_decode hi', htag, hp]⟩

/-- Settles O19: the tag comes from opcode, funct3 and funct7, and no other port of a variant with
the register reads the replaced bits. -/
theorem noRegisterIndexIsSpecial : Obligations.NoRegisterIndexIsSpecial := by
  refine ⟨fun w w' i h hc hw => ?_, fun w w' i h hc hw => ?_, fun w w' i h hc hw => ?_, by decide⟩
  · rw [bundle_of_decode h]
    exact exists_decode_bundle_eq h (tagIn_of_carriesRd _ hc).1 hw (by decide) (fun _ => by decide)
      (portsOfTag_replace_rd hc hw)
  · rw [bundle_of_decode h]
    exact exists_decode_bundle_eq h (tagIn_of_carriesRs1 _ hc).1 hw (by decide) (fun _ => by decide)
      (portsOfTag_replace_rs1 hc hw)
  · rw [bundle_of_decode h]
    exact exists_decode_bundle_eq h (tagIn_of_carriesRs2 _ hc).1 hw (by decide) (fun _ => by decide)
      (portsOfTag_replace_rs2 hc hw)

/-- Settles O20: a CSR variant checks no funct7, so all of word[31:20] is free. -/
theorem csrNumberIsNeverJudged : Obligations.CsrNumberIsNeverJudged := by
  intro w w' i h hc hw
  obtain ⟨hm, h7, -⟩ := tagIn_of_carriesCsr _ hc
  have hb := bundle_of_decode h
  refine ⟨(congrArg Ports.csr hb).trans (if_pos hc), ?_⟩
  rw [hb]
  exact exists_decode_bundle_eq h hm hw (by decide) (fun ht => absurd (h7.symm.trans ht) (by decide))
    (portsOfTag_replace_csr hc hw)

/-! ### The resolver -/

/-- Settles O30: the resolver's one comparison is R24's bound. -/
theorem resolveAcceptsExactlyUpTo31 : Obligations.ResolveAcceptsExactlyUpTo31 := by
  refine ⟨fun raw h => ?_, fun raw h => ?_⟩
  · rw [resolve, if_pos (BitVec.le_def.2 h), BitVec.setWidth_eq_extractLsb' (by decide)]
  · exact if_neg (fun hle => absurd (BitVec.le_def.1 hle) (by simpa using h))

/-- Settles O31: a raw value up to 31 is its own low five bits, and a zero-extended index resolves. -/
theorem toIndexInvertsResolve : Obligations.ToIndexInvertsResolve := by
  refine ⟨fun i => rfl, fun raw h => ⟨_, resolveAcceptsExactlyUpTo31.1 raw h, ?_⟩,
    fun r => resolve_setWidth r.index⟩
  simp only [toIndex, BitVec.extractLsb'_toNat, Nat.shiftRight_zero]
  omega

/-- The registers below `n` in a mask are the indices below `n` whose bit is set, in order. -/
theorem listBelow_eq_map_filter (mask : BitVec 32) (n : Nat) :
    listBelow mask n =
      ((List.range n).filter (fun k => mask.getLsbD k)).map (fun k => ⟨BitVec.ofNat 5 k⟩) := by
  induction n with
  | zero => rfl
  | succ n ih =>
    rw [listBelow, ih, List.range_succ, List.filter_append, List.map_append]
    cases h : mask.getLsbD n <;> simp [h]

/-- A register is listed exactly when its bit is set. -/
theorem mem_listFromBitmask (mask : BitVec 32) (r : Register) :
    r ∈ listFromBitmask mask ↔ mask.getLsbD r.index.toNat = true := by
  simp only [listFromBitmask, listBelow_eq_map_filter, List.mem_map, List.mem_filter,
    List.mem_range]
  constructor
  · rintro ⟨k, ⟨hk, hbit⟩, rfl⟩
    rwa [show (BitVec.ofNat 5 k).toNat = k from Nat.mod_eq_of_lt hk]
  · intro hbit
    exact ⟨r.index.toNat, ⟨r.index.isLt, hbit⟩, by simp⟩

/-- The list is in ascending index order. -/
theorem listFromBitmask_pairwise_lt (mask : BitVec 32) :
    (listFromBitmask mask).Pairwise (fun a b => a.index.toNat < b.index.toNat) := by
  rw [listFromBitmask, listBelow_eq_map_filter, List.pairwise_map]
  refine List.Pairwise.imp_of_mem ?_ (List.pairwise_lt_range.filter _)
  intro a b ha hb hab
  have ha' := List.mem_range.1 (List.mem_of_mem_filter ha)
  have hb' := List.mem_range.1 (List.mem_of_mem_filter hb)
  simp only [Config.nreg] at ha' hb'
  simp only [BitVec.toNat_ofNat]
  omega

/-- Settles O32: the list is the set bits of `List.range 32`. -/
theorem listFromBitmaskListsSetBitsInOrder : Obligations.ListFromBitmaskListsSetBitsInOrder := by
  refine ⟨mem_listFromBitmask, listFromBitmask_pairwise_lt, fun mask => ?_, rfl⟩
  rw [listFromBitmask, listBelow_eq_map_filter, List.length_map, Config.nreg]

/-! ### The wrapper -/

/-- Four bytes decode to the result of the word they assemble to; so do the lanes of a word. -/
theorem decodeBytes_lanes (w : Word) :
    decodeBytes (laneOf w 0) (laneOf w 1) (laneOf w 2) (laneOf w 3) = decode w := by
  rw [decodeBytes, assemble_lanes]

/-- The lanes of whole words stream to one result per word. -/
theorem decodeStream_lanes (ws : List Word) :
    decodeStream (ws.flatMap (fun w => [laneOf w 0, laneOf w 1, laneOf w 2, laneOf w 3])) =
      .results (ws.map decode) := by
  induction ws with
  | nil => rfl
  | cons w ws ih =>
    rw [List.flatMap_cons]
    simp only [List.cons_append, List.nil_append, decodeStream, ih, decodeBytes_lanes]
    rfl

/-- A short last group makes the whole stream a contract violation (log entry 14). -/
theorem decodeStream_of_length_mod_ne {bs : List Byte} (h : bs.length % 4 ≠ 0) :
    decodeStream bs = .contractViolation := by
  induction bs using decodeStream.induct with
  | case1 => exact absurd rfl h
  | case2 b0 b1 b2 b3 rest ih =>
    rw [decodeStream, ih (by simp only [List.length_cons] at h; omega)]
    rfl
  | case3 bs hnil hfour => exact decodeStream.eq_3 bs hnil hfour

/-- Only four bytes make a word. -/
theorem wrap_of_length_ne {bs : List Byte} (h : bs.length ≠ 4) : wrap bs = .contractViolation := by
  match bs with
  | [b0, b1, b2, b3] => exact absurd rfl h
  | [] | [_] | [_, _] | [_, _, _] | _ :: _ :: _ :: _ :: _ :: _ => rfl

/-- Settles O40: `assemble_lanes` puts each word together again. -/
theorem byteStreamDecodesWordByWord : Obligations.ByteStreamDecodesWordByWord :=
  ⟨fun _ => wrap_of_length_ne, fun _ _ _ _ => rfl, decodeStream_lanes,
    fun _ => decodeStream_of_length_mod_ne⟩

/-! ### What each instruction and each error drives -/

/-- Settles O26. -/
theorem raiseDrivesErrorPorts : Obligations.RaiseDrivesErrorPorts :=
  ⟨fun v => raise_eq (.unrecognizedOpcode v), fun o v => raise_eq (.invalidFunct3 o v),
    fun f v => raise_eq (.invalidFunct7 f v), fun v => raise_eq (.invalidRegister v)⟩

/-- Settles O52. -/
theorem upperImmediateAndJalDrivePorts : Obligations.UpperImmediateAndJalDrivePorts := by
  intro rd imm s
  exact ⟨exec_eq _ s, exec_eq _ s, exec_eq _ s⟩

/-- Settles O53. -/
theorem jalrAndOpImmDrivePorts : Obligations.JalrAndOpImmDrivePorts := by
  intro rd rs1 imm s
  exact ⟨exec_eq _ s, exec_eq _ s, exec_eq _ s, exec_eq _ s, exec_eq _ s, exec_eq _ s, exec_eq _ s⟩

/-- Settles O54. -/
theorem branchesAndStoresDrivePorts : Obligations.BranchesAndStoresDrivePorts := by
  intro rs1 rs2 imm s
  exact ⟨exec_eq _ s, exec_eq _ s, exec_eq _ s, exec_eq _ s, exec_eq _ s, exec_eq _ s, exec_eq _ s,
    exec_eq _ s, exec_eq _ s⟩

/-- Settles O55: `exec_eq` has the LOAD container below sixteen zeros. -/
theorem loadsDrivePorts : Obligations.LoadsDrivePorts := by
  intro rd rs1 imm16 s
  exact ⟨exec_eq _ s, exec_eq _ s, exec_eq _ s, exec_eq _ s, exec_eq _ s⟩

/-- Settles O56. -/
theorem immediateShiftsDrivePorts : Obligations.ImmediateShiftsDrivePorts := by
  intro rd rs1 shamt s
  exact ⟨exec_eq _ s, exec_eq _ s, exec_eq _ s⟩

/-- Settles O57. -/
theorem opInstructionsDrivePorts : Obligations.OpInstructionsDrivePorts := by
  intro rd rs1 rs2 s
  exact ⟨exec_eq _ s, exec_eq _ s, exec_eq _ s, exec_eq _ s, exec_eq _ s, exec_eq _ s, exec_eq _ s,
    exec_eq _ s, exec_eq _ s, exec_eq _ s⟩

/-- Settles O58. -/
theorem markersDrivePorts : Obligations.MarkersDrivePorts := by
  intro s
  exact ⟨exec_eq _ s, exec_eq _ s, exec_eq _ s, exec_eq _ s, exec_eq _ s⟩

/-- Settles O59. -/
theorem csrInstructionsDrivePorts : Obligations.CsrInstructionsDrivePorts := by
  refine ⟨fun rd rs1 csr s => ?_, fun rd zimm csr s => ?_⟩
  · exact ⟨exec_eq _ s, exec_eq _ s, exec_eq _ s⟩
  · exact ⟨exec_eq _ s, exec_eq _ s, exec_eq _ s⟩

end Sys2Proof

/-! ## Proofs of the family 20_memory

Where each byte lies in the word the wrapper assembles, and the word the core sees on each
kind of front. -/

namespace Sys2Proof
open Machine

/-- Bit k of each byte is bit k of that byte's lane in the word. -/
theorem getLsbD_assemble_lane (b0 b1 b2 b3 : Byte) {k : Nat} (hk : k < 8) :
    (assemble b0 b1 b2 b3).getLsbD k = b0.getLsbD k ∧
    (assemble b0 b1 b2 b3).getLsbD (8 + k) = b1.getLsbD k ∧
    (assemble b0 b1 b2 b3).getLsbD (16 + k) = b2.getLsbD k ∧
    (assemble b0 b1 b2 b3).getLsbD (24 + k) = b3.getLsbD k := by
  simp only [assemble_cast, BitVec.getLsbD_cast, BitVec.getLsbD_append]
  refine ⟨if_pos hk, ?_, ?_, ?_⟩
  · rw [if_neg (by omega), Nat.add_sub_cancel_left, if_pos hk]
  · rw [if_neg (by omega), if_neg (by omega), show 16 + k - 8 - 8 = k by omega, if_pos hk]
  · rw [if_neg (by omega), if_neg (by omega), if_neg (by omega),
      show 24 + k - 8 - 8 - 8 = k by omega]

/-- Behind the wrapper the core sees the assembled word. -/
theorem word_of_bytes {s : State} {b0 b1 b2 b3 : Byte} (h : s.inputs.front = .bytes b0 b1 b2 b3) :
    s.word = assemble b0 b1 b2 b3 :=
  congrArg Front.toWord h

/-- On the word input the core sees the word presented. -/
theorem word_of_word {s : State} {w : Word} (h : s.inputs.front = .word w) : s.word = w :=
  congrArg Front.toWord h

/-- Settles O38: the concatenation puts byte k above k whole bytes. -/
theorem wrapperAssemblesLittleEndian : Obligations.WrapperAssemblesLittleEndian :=
  ⟨fun b0 b1 b2 b3 _ hk => getLsbD_assemble_lane b0 b1 b2 b3 hk, fun _ _ _ _ _ => word_of_bytes,
    rfl, rfl⟩

/-- Settles O39: the core sees the same word on both fronts, and the outputs depend on the word
alone (O5). -/
theorem wrapperDoesNotChangeDecode : Obligations.WrapperDoesNotChangeDecode := by
  intro s t s' t' b0 b1 b2 b3 hbytes hword hs ht
  have hw : s.word = t.word := (word_of_bytes hbytes).trans (word_of_word hword).symm
  exact resultDependsOnlyOnWord s t s' t' hw hs ht

end Sys2Proof

/-! ## Proofs of the family 30_encoding

The two round trips between words and variants; the opcode table read off them; which check of
`decode` fails first; the immediates bit by bit; the pseudo-instructions. -/

namespace Sys2Proof
open Machine

/-! ### Decoding a word an encoder built: one rule per handler

Each rule takes the funct3 (and funct7) map of its handler as a hypothesis, so that it serves every
variant of the class. -/

theorem decode_encU_lui {imm : BitVec 32} (h : immUOk imm = true) (rd : Register) :
    decode (encU imm rd .lui) = .ok ⟨.w32, .lui rd imm⟩ := by
  rw [decode_of_code (opcodeOf_encU ..)]
  simp [handler, decodeLui, immU_encU h]

theorem decode_encU_auipc {imm : BitVec 32} (h : immUOk imm = true) (rd : Register) :
    decode (encU imm rd .auipc) = .ok ⟨.w32, .auipc rd imm⟩ := by
  rw [decode_of_code (opcodeOf_encU ..)]
  simp [handler, decodeAuipc, immU_encU h]

theorem decode_encJ_jal {imm : BitVec 32} (h : immJOk imm = true) (rd : Register) :
    decode (encJ imm rd .jal) = .ok ⟨.w32, .jal rd imm⟩ := by
  rw [decode_of_code (opcodeOf_encJ ..)]
  simp [handler, decodeJal, immJ_encJ h]

theorem decode_encI_jalr {imm : BitVec 32} (h : imm12Ok imm = true) (rd rs1 : Register) :
    decode (encI (imm.extractLsb' 0 12) rs1.index 0b000 rd .jalr) =
      .ok ⟨.w32, .jalr rd rs1 imm⟩ := by
  rw [decode_of_code (opcodeOf_encI ..)]
  simp [handler, decodeJalr, immI_encI h]

theorem decode_encB_branch {imm : BitVec 32} (h : immBOk imm = true) {f3 : BitVec 3}
    {v : Register → Register → BitVec 32 → Instr} (hv : branchVariant f3 = some v)
    (rs1 rs2 : Register) :
    decode (encB imm rs2 rs1 f3 .branch) = .ok ⟨.w32, v rs1 rs2 imm⟩ := by
  rw [decode_of_code (opcodeOf_encB ..)]
  simp [handler, decodeBranch, hv, immB_encB h]

theorem decode_encI_load {imm16 : BitVec 16} (h : immLOk imm16 = true) {f3 : BitVec 3}
    {v : Register → Register → BitVec 16 → Instr} (hv : loadVariant f3 = some v)
    (rd rs1 : Register) :
    decode (encI (imm16.extractLsb' 0 12) rs1.index f3 rd .load) =
      .ok ⟨.w32, v rd rs1 imm16⟩ := by
  rw [decode_of_code (opcodeOf_encI ..)]
  simp [handler, decodeLoad, hv, immL_encI h]

theorem decode_encS_store {imm : BitVec 32} (h : imm12Ok imm = true) {f3 : BitVec 3}
    {v : Register → Register → BitVec 32 → Instr} (hv : storeVariant f3 = some v)
    (rs1 rs2 : Register) :
    decode (encS imm rs2 rs1 f3 .store) = .ok ⟨.w32, v rs1 rs2 imm⟩ := by
  rw [decode_of_code (opcodeOf_encS ..)]
  simp [handler, decodeStore, hv, immS_encS h]

theorem decode_encI_opImm {imm : BitVec 32} (h : imm12Ok imm = true) {f3 : BitVec 3}
    {v : Register → Register → BitVec 32 → Instr} (hv : opImmVariant f3 = some v)
    (rd rs1 : Register) :
    decode (encI (imm.extractLsb' 0 12) rs1.index f3 rd .opImm) =
      .ok ⟨.w32, v rd rs1 imm⟩ := by
  rw [decode_of_code (opcodeOf_encI ..)]
  simp [handler, decodeOpImm, hv, immI_encI h]

theorem decode_encShift_opImm {f3 : BitVec 3} {f7 : BitVec 7}
    {v : Register → Register → BitVec 5 → Instr} (hn : opImmVariant f3 = none)
    (hv : shiftVariant f3 f7 = some v) (rd rs1 : Register) (shamt : BitVec 5) :
    decode (encShift f7 shamt rs1 f3 rd .opImm) = .ok ⟨.w32, v rd rs1 shamt⟩ := by
  rw [decode_of_code (opcodeOf_encShift ..)]
  simp [handler, decodeOpImm, hn, hv]

theorem decode_encR_op {f3 : BitVec 3} {f7 : BitVec 7}
    {v : Register → Register → Register → Instr} (hv : opVariant f3 f7 = some v)
    (rd rs1 rs2 : Register) :
    decode (encR f7 rs2 rs1 f3 rd .op) = .ok ⟨.w32, v rd rs1 rs2⟩ := by
  rw [decode_of_code (opcodeOf_encR ..)]
  simp [handler, decodeOp, hv]

theorem decode_encI_csrReg {f3 : BitVec 3} {v : Register → Register → BitVec 12 → Instr}
    (h3 : f3 ≠ 0#3) (hv : csrRegVariant f3 = some v) (rd rs1 : Register) (csr : BitVec 12) :
    decode (encI csr rs1.index f3 rd .system) = .ok ⟨.w32, v rd rs1 csr⟩ := by
  rw [decode_system (ne_markers (by simpa using h3)) (opcodeOf_encI ..)]
  simp [hv]

theorem decode_encI_csrImm {f3 : BitVec 3} {v : Register → BitVec 5 → BitVec 12 → Instr}
    (h3 : f3 ≠ 0#3) (hn : csrRegVariant f3 = none) (hv : csrImmVariant f3 = some v)
    (rd : Register) (zimm : BitVec 5) (csr : BitVec 12) :
    decode (encI csr zimm f3 rd .system) = .ok ⟨.w32, v rd zimm csr⟩ := by
  rw [decode_system (ne_markers (by simpa using h3)) (opcodeOf_encI ..)]
  simp [hn, hv]

/-- Settles O12: each variant's encoder followed by its handler, at the variant's funct3 and funct7. -/
theorem decodeOfEncodeGivesVariantBack : Obligations.DecodeOfEncodeGivesVariantBack := by
  intro i h
  cases i
  case lui => exact decode_encU_lui h _
  case auipc => exact decode_encU_auipc h _
  case jal => exact decode_encJ_jal h _
  case jalr => exact decode_encI_jalr h _ _
  case beq | bne | blt | bge | bltu | bgeu => all_goals exact decode_encB_branch h rfl _ _
  case lb | lh | lw | lbu | lhu => all_goals exact decode_encI_load h rfl _ _
  case sb | sh | sw => all_goals exact decode_encS_store h rfl _ _
  case addi | slti | sltiu | xori | ori | andi => all_goals exact decode_encI_opImm h rfl _ _
  case slli | srli | srai => all_goals exact decode_encShift_opImm rfl rfl _ _ _
  case add | sub | sll | slt | sltu | xor | srl | sra | or | and =>
    all_goals exact decode_encR_op rfl _ _ _
  case fence | fenceI | ecall | ebreak | mret => all_goals decide
  case csrrw | csrrs | csrrc => all_goals exact decode_encI_csrReg (by decide) rfl _ _ _
  case csrrwi | csrrsi | csrrci => all_goals exact decode_encI_csrImm (by decide) rfl rfl _ _ _

/-! ### A decoded word under the masks of R102

Under its row's mask a word is the encoder's word with zero operands: the row's match. -/

theorem and_opcodeMask {w : Word} {c : OpcodeClass} (h : opcodeOf w = c.code) :
    w &&& 0x0000007F = encU 0 .zero c := by
  apply BitVec.eq_of_getLsbD_eq
  intro i hi
  simp only [encU_cast, ← h, opcodeOf, Register.zero, BitVec.getLsbD_cast,
    BitVec.getLsbD_and, BitVec.getLsbD_append, BitVec.getLsbD_extractLsb']
  interval_cases i <;> simp

theorem and_funct3Mask {w : Word} {c : OpcodeClass} {f3 : BitVec 3} (h : opcodeOf w = c.code)
    (h3 : funct3Of w = f3) : w &&& 0x0000707F = encI 0 0 f3 .zero c := by
  apply BitVec.eq_of_getLsbD_eq
  intro i hi
  simp only [encI_cast, ← h, ← h3, opcodeOf, funct3Of, Register.zero, BitVec.getLsbD_cast,
    BitVec.getLsbD_and, BitVec.getLsbD_append, BitVec.getLsbD_extractLsb']
  interval_cases i <;> simp

theorem and_funct7Mask {w : Word} {c : OpcodeClass} {f3 : BitVec 3} {f7 : BitVec 7}
    (h : opcodeOf w = c.code) (h3 : funct3Of w = f3) (h7 : funct7Of w = f7) :
    w &&& 0xFE00707F = encR f7 .zero .zero f3 .zero c := by
  apply BitVec.eq_of_getLsbD_eq
  intro i hi
  simp only [encR_cast, ← h, ← h3, ← h7, opcodeOf, funct3Of, funct7Of, Register.zero,
    BitVec.getLsbD_cast, BitVec.getLsbD_and, BitVec.getLsbD_append, BitVec.getLsbD_extractLsb']
  interval_cases i <;> simp

/-- The word of a variant decoded from a MISC-MEM word is that word under the funct3 mask. -/
theorem encode_of_decode_fence {w : Word} {i : Instr} (h : decode w = .ok ⟨.w32, i⟩)
    (hf : i = .fence ∨ i = .fenceI) :
    opcodeOf w = OpcodeClass.miscMem.code ∧ encode i = w &&& 0x0000707F := by
  have hcase := decode_cases w
  rw [h] at hcase
  rcases hf with rfl | rfl
  · cases hcase with
    | fence hop h3 => exact ⟨hop, (and_funct3Mask hop h3).symm⟩
  · cases hcase with
    | fenceI hop h3 => exact ⟨hop, (and_funct3Mask hop h3).symm⟩

/-- The word of any other decoded variant is the word itself: every bit is a field of its format. -/
theorem encode_of_decode {w : Word} {i : Instr} (h : decode w = .ok ⟨.w32, i⟩)
    (hf : i ≠ .fence ∧ i ≠ .fenceI) : encode i = w := by
  have hcase := decode_cases w
  rw [h] at hcase
  cases hcase
  case lui hop | auipc hop => all_goals exact encU_fields hop
  case jal hop => exact encJ_fields hop
  case jalr hop h3 | addi hop h3 | slti hop h3 | sltiu hop h3 | xori hop h3 | ori hop h3
      | andi hop h3 =>
    all_goals
      rw [encode, immI_low]
      exact encI_fields hop h3
  case beq hop h3 | bne hop h3 | blt hop h3 | bge hop h3 | bltu hop h3 | bgeu hop h3 =>
    all_goals exact encB_fields hop h3
  case lb hop h3 | lh hop h3 | lw hop h3 | lbu hop h3 | lhu hop h3 =>
    all_goals
      rw [encode, immL_low]
      exact encI_fields hop h3
  case sb hop h3 | sh hop h3 | sw hop h3 => all_goals exact encS_fields hop h3
  case slli hop h3 h7 | srli hop h3 h7 | srai hop h3 h7 => all_goals exact encShift_fields hop h3 h7
  case add hop h3 h7 | sub hop h3 h7 | sll hop h3 h7 | slt hop h3 h7 | sltu hop h3 h7
      | xor hop h3 h7 | srl hop h3 h7 | sra hop h3 h7 | or hop h3 h7 | and hop h3 h7 =>
    all_goals exact encR_fields hop h3 h7
  case fence => exact absurd rfl hf.1
  case fenceI => exact absurd rfl hf.2
  case ecall hw | ebreak hw | mret hw => all_goals exact hw.symm
  case csrrw hop h3 | csrrs hop h3 | csrrc hop h3 | csrrwi hop h3 | csrrsi hop h3 | csrrci hop h3 =>
    all_goals exact encI_fields hop h3

/-- Settles O13. -/
theorem encodeOfDecodeGivesWordBack : Obligations.EncodeOfDecodeGivesWordBack :=
  fun _ _ h => ⟨fun hf => (encode_of_decode_fence h hf).2, encode_of_decode h⟩

/-! ### One result for each word; which bits a word may vary in -/

/-- Settles O4: a result is a success or an error, and a step answers the result's bundle. -/
theorem everyWordHasExactlyOneResult : Obligations.EveryWordHasExactlyOneResult := by
  refine ⟨fun w => ?_, fun s => ⟨_, step_eq s⟩, by decide, by decide⟩
  cases decode w with
  | ok ins => exact .inl ⟨⟨ins, rfl⟩, fun e => by simp⟩
  | err e => exact .inr ⟨⟨e, rfl⟩, fun ins => by simp⟩

/-- MISC-MEM words that agree under the funct3 mask decode alike (R92). -/
theorem decode_miscMem_congr {w w' : Word} (h : opcodeOf w = OpcodeClass.miscMem.code)
    (hm : w &&& 0x0000707F = w' &&& 0x0000707F) : decode w = decode w' := by
  have ho : opcodeOf w = opcodeOf w' := extractLsb'_eq_of_and_eq hm 0 7 (by decide)
  have h3 : funct3Of w = funct3Of w' := extractLsb'_eq_of_and_eq hm 12 3 (by decide)
  rw [decode_of_code h, decode_of_code (ho.symm.trans h)]
  simp only [handler, decodeMiscMem, ho, h3]

/-- Words of one variant, FENCE and FENCE.I apart, are one word. -/
theorem eq_of_decode_eq {w w' : Word} {i : Instr} (h : decode w = .ok ⟨.w32, i⟩)
    (h' : decode w' = .ok ⟨.w32, i⟩) (hf : i ≠ .fence ∧ i ≠ .fenceI) : w = w' :=
  (encode_of_decode h hf).symm.trans (encode_of_decode h' hf)

/-- A variant without ignored bits is decoded from its own word alone. -/
theorem decode_eq_ok_iff {w : Word} {i : Instr} (hi : decode (encode i) = .ok ⟨.w32, i⟩)
    (hf : i ≠ .fence ∧ i ≠ .fenceI) : decode w = .ok ⟨.w32, i⟩ ↔ w = encode i :=
  ⟨fun h => eq_of_decode_eq h hi hf, fun h => h ▸ hi⟩

/-- Settles O14: outside MISC-MEM the decoded variant encodes to the word itself (O13), and the
markers are no exception. -/
theorem onlyMiscMemWordsHaveIgnoredBits : Obligations.OnlyMiscMemWordsHaveIgnoredBits := by
  refine ⟨fun w w' => decode_miscMem_congr, fun w w' ins ho h h' => ?_,
    fun w => decode_eq_ok_iff (by decide) (by decide),
    fun w => decode_eq_ok_iff (by decide) (by decide),
    fun w => decode_eq_ok_iff (by decide) (by decide)⟩
  obtain ⟨⟨⟩, i⟩ := ins
  have hf : ¬(i = .fence ∨ i = .fenceI) := fun hf => ho (encode_of_decode_fence h hf).1
  exact eq_of_decode_eq h h' (not_or.1 hf)

/-! ### The opcode table -/

/-- A decoded word matches the row of its variant: the row's mask keeps exactly the fields that
were compared. -/
theorem exists_row_hits_of_decode {w : Word} {i : Instr} (h : decode w = .ok ⟨.w32, i⟩) :
    ∃ row, opcodeTable[i.tag.toNat]? = some row ∧ row.hits w := by
  have hcase := decode_cases w
  rw [h] at hcase
  cases hcase
  case lui hop => exact ⟨_, rfl, and_opcodeMask (c := .lui) hop⟩
  case auipc hop => exact ⟨_, rfl, and_opcodeMask (c := .auipc) hop⟩
  case jal hop => exact ⟨_, rfl, and_opcodeMask (c := .jal) hop⟩
  case jalr hop h3 => exact ⟨_, rfl, and_funct3Mask (c := .jalr) hop h3⟩
  case beq hop h3 | bne hop h3 | blt hop h3 | bge hop h3 | bltu hop h3 | bgeu hop h3 =>
    all_goals exact ⟨_, rfl, and_funct3Mask (c := .branch) hop h3⟩
  case lb hop h3 | lh hop h3 | lw hop h3 | lbu hop h3 | lhu hop h3 =>
    all_goals exact ⟨_, rfl, and_funct3Mask (c := .load) hop h3⟩
  case sb hop h3 | sh hop h3 | sw hop h3 =>
    all_goals exact ⟨_, rfl, and_funct3Mask (c := .store) hop h3⟩
  case addi hop h3 | slti hop h3 | sltiu hop h3 | xori hop h3 | ori hop h3 | andi hop h3 =>
    all_goals exact ⟨_, rfl, and_funct3Mask (c := .opImm) hop h3⟩
  case slli hop h3 h7 | srli hop h3 h7 | srai hop h3 h7 =>
    all_goals exact ⟨_, rfl, and_funct7Mask (c := .opImm) hop h3 h7⟩
  case add hop h3 h7 | sub hop h3 h7 | sll hop h3 h7 | slt hop h3 h7 | sltu hop h3 h7
      | xor hop h3 h7 | srl hop h3 h7 | sra hop h3 h7 | or hop h3 h7 | and hop h3 h7 =>
    all_goals exact ⟨_, rfl, and_funct7Mask (c := .op) hop h3 h7⟩
  case fence hop h3 | fenceI hop h3 =>
    all_goals exact ⟨_, rfl, and_funct3Mask (c := .miscMem) hop h3⟩
  case ecall hw | ebreak hw | mret hw => all_goals exact ⟨_, rfl, (BitVec.and_allOnes).trans hw⟩
  case csrrw hop h3 | csrrs hop h3 | csrrc hop h3 | csrrwi hop h3 | csrrsi hop h3 | csrrci hop h3 =>
    all_goals exact ⟨_, rfl, and_funct3Mask (c := .system) hop h3⟩

/-- A success on the ports is a decoded variant with the tag shown. -/
theorem exists_decode_of_bundle_ok {w : Word} (h : (bundle (decode w)).ok = 1) :
    ∃ i, decode w = .ok ⟨.w32, i⟩ ∧ i.tag = (bundle (decode w)).op := by
  cases hd : decode w with
  | ok ins => exact ⟨ins.operation, rfl, rfl⟩
  | err e =>
    rw [hd] at h
    exact absurd (show 0#1 = 1#1 from h) (by decide)

/-- A row's match word decodes to a variant with the row's tag. -/
theorem pattern_ports : ∀ row ∈ opcodeTable,
    (bundle (decode row.pattern)).ok = 1 ∧ (bundle (decode row.pattern)).op = row.tag := by
  decide

/-- What a row's mask keeps of a word: for LUI, AUIPC and JAL the opcode, for every other row the
funct3 too, for the rows of R90 the funct7 too, and for the markers the whole word. -/
theorem mask_covers : ∀ row ∈ opcodeTable, row.pattern &&& row.mask = row.pattern ∧
    row.mask &&& 0x0000007F = 0x0000007F ∧
    (tagIn row.tag 0 2 = false → row.mask &&& 0x0000707F = 0x0000707F) ∧
    (tagIn row.tag 24 36 = true → row.mask &&& 0xFE000000 = 0xFE000000) ∧
    (tagIn row.tag 39 41 = true → row.mask = BitVec.allOnes 32) := by
  decide

/-- For LUI, AUIPC and JAL the opcode alone decides the variant. -/
theorem exists_decode_of_same_opcode {w w' : Word} {i : Instr} (h : decode w = .ok ⟨.w32, i⟩)
    (ht : tagIn i.tag 0 2 = true) (ho : opcodeOf w' = opcodeOf w) :
    ∃ i', decode w' = .ok ⟨.w32, i'⟩ ∧ i'.tag = i.tag := by
  have hcase := decode_cases w
  rw [h] at hcase
  cases hcase
  case lui hop =>
    rw [decode_of_code (c := .lui) (ho.trans hop)]
    simp only [handler, decodeLui, withReg_eq, emitOk_eq]
    exact ⟨_, rfl, rfl⟩
  case auipc hop =>
    rw [decode_of_code (c := .auipc) (ho.trans hop)]
    simp only [handler, decodeAuipc, withReg_eq, emitOk_eq]
    exact ⟨_, rfl, rfl⟩
  case jal hop =>
    rw [decode_of_code (c := .jal) (ho.trans hop)]
    simp only [handler, decodeJal, withReg_eq, emitOk_eq]
    exact ⟨_, rfl, rfl⟩
  all_goals exact absurd ht Bool.false_ne_true

/-- A word that matches a row decodes to that row's variant: its match word does, and the word
agrees with it wherever the variant is decided. -/
theorem exists_decode_of_hits {w : Word} {row : OpcodeRow} (hrow : row ∈ opcodeTable)
    (h : row.hits w) : ∃ i : Instr, decode w = .ok ⟨.w32, i⟩ ∧ i.tag = row.tag := by
  obtain ⟨hok, hop⟩ := pattern_ports row hrow
  obtain ⟨i, hi, htag⟩ := exists_decode_of_bundle_ok hok
  obtain ⟨hpat, hcode, hfunct3, hfunct7, hwhole⟩ := mask_covers row hrow
  have hagree : w &&& row.mask = row.pattern &&& row.mask := h.trans hpat.symm
  rw [hop] at htag
  rw [← htag] at hfunct3 hfunct7 hwhole ⊢
  by_cases hmarker : tagIn i.tag 39 41 = true
  · rw [OpcodeRow.hits, hwhole hmarker, BitVec.and_allOnes] at h
    exact ⟨i, h ▸ hi, rfl⟩
  have hopcode : opcodeOf w = opcodeOf row.pattern :=
    extractLsb'_eq_of_and_eq (and_eq_of_covers hagree _ hcode) 0 7 (by decide)
  by_cases hupper : tagIn i.tag 0 2 = true
  · exact exists_decode_of_same_opcode hi hupper hopcode
  · exact exists_decode_of_same_selectors hi (by simpa using hmarker) hopcode
      (extractLsb'_eq_of_and_eq (and_eq_of_covers hagree _ (hfunct3 (by simpa using hupper))) 12 3
        (by decide))
      (fun h7 => extractLsb'_eq_of_and_eq (and_eq_of_covers hagree _ (hfunct7 h7)) 25 7
        (by decide))

/-- The tags of the rows are 0 to 47, each once and in order (R31). -/
theorem tags_opcodeTable :
    opcodeTable.map (fun row => row.tag.toNat) = List.range 48 := by
  decide

/-- No two rows share a tag. -/
theorem row_eq_of_tag_eq {row row' : OpcodeRow} (h : row ∈ opcodeTable) (h' : row' ∈ opcodeTable)
    (ht : row.tag = row'.tag) : row = row' :=
  List.inj_on_of_nodup_map (tags_opcodeTable ▸ List.nodup_range) h h' (congrArg BitVec.toNat ht)

/-- Settles O16: a decoded word matches its variant's row, a matching word decodes to the row's
variant, and so two rows that match one word have one tag. -/
theorem opcodeTableDecidesDecode : Obligations.OpcodeTableDecidesDecode := by
  refine ⟨rfl, tags_opcodeTable, fun w => ⟨?_, ?_⟩, fun w row hr row' hr' h h' => ?_,
    fun w row hr h => exists_decode_of_hits hr h⟩
  · rintro ⟨⟨⟨⟩, i⟩, h⟩
    obtain ⟨row, hrow, hhits⟩ := exists_row_hits_of_decode h
    exact ⟨row, List.mem_of_getElem? hrow, hhits⟩
  · rintro ⟨row, hrow, hhits⟩
    obtain ⟨i, hi, -⟩ := exists_decode_of_hits hrow hhits
    exact ⟨_, hi⟩
  · obtain ⟨i, hi, ht⟩ := exists_decode_of_hits hr h
    obtain ⟨i', hi', ht'⟩ := exists_decode_of_hits hr' h'
    rw [hi] at hi'
    cases hi'
    exact row_eq_of_tag_eq hr hr' (ht.symm.trans ht')

/-! ### Which check fails first -/

/-- An opcode that is none of the eleven decides alone (R81). -/
theorem decode_of_classOf_none {w : Word} (h : classOf (opcodeOf w) = none) :
    decode w = .err (.unrecognizedOpcode (opcodeOf w)) := by
  rw [decode, h, raiseErr_eq]

/-- A decoded variant has the class and format of the word's opcode (R70, R72), and a word that
decodes, the markers apart, fails no check of R302 or R303. -/
theorem class_format_checks_of_decode {w : Word} {i : Instr} {c : OpcodeClass}
    (h : decode w = .ok ⟨.w32, i⟩) (hc : classOf (opcodeOf w) = some c) :
    (classOfTag i.tag = some c ∧ formatOfTag i.tag = some (c.format (funct3Of w))) ∧
    (isMarkerWord w = false →
      funct3Raises c (funct3Of w) = false ∧ funct7Raises c (funct3Of w) (funct7Of w) = false) := by
  have hcase := decode_cases w
  rw [h] at hcase
  cases hcase
  case lui hop | auipc hop | jal hop =>
    all_goals
      obtain rfl := Option.some.inj ((congrArg classOf hop).symm.trans hc)
      exact ⟨⟨rfl, rfl⟩, fun _ => ⟨rfl, rfl⟩⟩
  case ecall hw | ebreak hw | mret hw =>
    all_goals
      subst hw
      obtain rfl := Option.some.inj hc
      exact ⟨⟨rfl, rfl⟩, fun hm => absurd hm (by decide)⟩
  case slli hop h3 h7 | srli hop h3 h7 | srai hop h3 h7 | add hop h3 h7 | sub hop h3 h7
      | sll hop h3 h7 | slt hop h3 h7 | sltu hop h3 h7 | xor hop h3 h7 | srl hop h3 h7
      | sra hop h3 h7 | or hop h3 h7 | and hop h3 h7 =>
    all_goals
      obtain rfl := Option.some.inj ((congrArg classOf hop).symm.trans hc)
      rw [h3, h7]
      exact ⟨⟨rfl, rfl⟩, fun _ => ⟨rfl, rfl⟩⟩
  case jalr hop h3 | beq hop h3 | bne hop h3 | blt hop h3 | bge hop h3 | bltu hop h3 | bgeu hop h3
      | lb hop h3 | lh hop h3 | lw hop h3 | lbu hop h3 | lhu hop h3 | sb hop h3 | sh hop h3
      | sw hop h3 | addi hop h3 | slti hop h3 | sltiu hop h3 | xori hop h3 | ori hop h3
      | andi hop h3 | fence hop h3 | fenceI hop h3 | csrrw hop h3 | csrrs hop h3 | csrrc hop h3
      | csrrwi hop h3 | csrrsi hop h3 | csrrci hop h3 =>
    all_goals
      obtain rfl := Option.some.inj ((congrArg classOf hop).symm.trans hc)
      rw [h3]
      exact ⟨⟨rfl, rfl⟩, fun _ => ⟨rfl, rfl⟩⟩

/-- The four outcomes of a word with a recognized opcode, each with the checks that lead there: the
decoder's order of checks (R82), said once. -/
theorem decode_of_classOf_some {w : Word} {c : OpcodeClass} (hc : classOf (opcodeOf w) = some c) :
    (∃ i : Instr, decode w = .ok ⟨.w32, i⟩ ∧ classOfTag i.tag = some c ∧
      formatOfTag i.tag = some (c.format (funct3Of w)) ∧
      (isMarkerWord w = false → funct3Raises c (funct3Of w) = false ∧
        funct7Raises c (funct3Of w) (funct7Of w) = false)) ∨
    (decode w = .err (.invalidFunct3 (opcodeOf w) (funct3Of w)) ∧
      isMarkerWord w = false ∧ funct3Raises c (funct3Of w) = true) ∨
    (decode w = .err (.invalidFunct7 (funct3Of w) (funct7Of w)) ∧
      isMarkerWord w = false ∧ funct3Raises c (funct3Of w) = false ∧
      funct7Raises c (funct3Of w) (funct7Of w) = true) := by
  cases h : decode w with
  | ok ins =>
    obtain ⟨⟨⟩, i⟩ := ins
    obtain ⟨⟨htag, hformat⟩, hchecks⟩ := class_format_checks_of_decode h hc
    exact .inl ⟨i, rfl, htag, hformat, hchecks⟩
  | err e =>
    have hcase := decode_cases w
    rw [h] at hcase
    cases hcase with
    | unrecognized hn => rw [hn] at hc; cases hc
    | funct3 c' hc' hm h3 =>
      obtain rfl := Option.some.inj (hc'.symm.trans hc)
      exact .inr (.inl ⟨rfl, hm, h3⟩)
    | funct7 c' hc' hm h3 h7 =>
      obtain rfl := Option.some.inj (hc'.symm.trans hc)
      exact .inr (.inr ⟨rfl, hm, h3, h7⟩)

/-- Settles O18. -/
theorem opcodeClassificationIsTotal : Obligations.OpcodeClassificationIsTotal := by
  refine ⟨fun w => decode_of_classOf_none, fun w c hc => ?_⟩
  rcases decode_of_classOf_some hc with ⟨i, hi, htag, hformat, -⟩ | ⟨he, -, h3⟩ | ⟨he, -, -, h7⟩
  · exact .inl ⟨i, hi, htag, hformat⟩
  · exact .inr (.inl ⟨he, h3⟩)
  · exact .inr (.inr ⟨he, h7⟩)

section Checks
variable {w : Word} {c : OpcodeClass}

/-- Past the markers, an undefined funct3 raises whatever funct7 holds. -/
theorem decode_eq_invalidFunct3 (hc : classOf (opcodeOf w) = some c)
    (hm : isMarkerWord w = false) (h3 : funct3Raises c (funct3Of w) = true) :
    decode w = .err (.invalidFunct3 (opcodeOf w) (funct3Of w)) := by
  rcases decode_of_classOf_some hc with ⟨i, -, -, -, hok⟩ | ⟨he, -, -⟩ | ⟨-, -, h3', -⟩
  · exact absurd ((hok hm).1.symm.trans h3) (by decide)
  · exact he
  · exact absurd (h3'.symm.trans h3) (by decide)

/-- Past the markers and funct3, a funct7 that is not admitted raises. -/
theorem decode_eq_invalidFunct7 (hc : classOf (opcodeOf w) = some c)
    (hm : isMarkerWord w = false) (h3 : funct3Raises c (funct3Of w) = false)
    (h7 : funct7Raises c (funct3Of w) (funct7Of w) = true) :
    decode w = .err (.invalidFunct7 (funct3Of w) (funct7Of w)) := by
  rcases decode_of_classOf_some hc with ⟨i, -, -, -, hok⟩ | ⟨-, -, h3'⟩ | ⟨he, -, -, -⟩
  · exact absurd ((hok hm).2.symm.trans h7) (by decide)
  · exact absurd (h3.symm.trans h3') (by decide)
  · exact he

/-- A word that fails no check decodes. -/
theorem exists_decode_of_no_check_fails (hc : classOf (opcodeOf w) = some c)
    (h3 : funct3Raises c (funct3Of w) = false)
    (h7 : funct7Raises c (funct3Of w) (funct7Of w) = false) : ∃ ins, decode w = .ok ins := by
  rcases decode_of_classOf_some hc with ⟨i, hi, -⟩ | ⟨-, -, h3'⟩ | ⟨-, -, -, h7'⟩
  · exact ⟨_, hi⟩
  · exact absurd (h3.symm.trans h3') (by decide)
  · exact absurd (h7.symm.trans h7') (by decide)

end Checks

/-- A marker word decodes to its marker before funct3 is looked at (R203). -/
theorem decode_of_isMarkerWord {w : Word} (h : isMarkerWord w = true) :
    ∃ i : Instr, decode w = .ok ⟨.w32, i⟩ ∧ (i = .ecall ∨ i = .ebreak ∨ i = .mret) := by
  simp only [isMarkerWord, Bool.or_eq_true, beq_iff_eq] at h
  rcases h with (rfl | rfl) | rfl
  · exact ⟨.mret, by decide, .inr (.inr rfl)⟩
  · exact ⟨.ecall, by decide, .inl rfl⟩
  · exact ⟨.ebreak, by decide, .inr (.inl rfl)⟩

/-- Settles O25. -/
theorem firstFailingCheckDecides : Obligations.FirstFailingCheckDecides :=
  ⟨fun _ => decode_of_classOf_none, fun _ _ hc => ⟨decode_of_isMarkerWord,
    decode_eq_invalidFunct3 hc, decode_eq_invalidFunct7 hc,
    fun _ => exists_decode_of_no_check_fails hc⟩, by decide⟩

/-! ### Words that are no instruction of the block -/

/-- A word of a class other than SYSTEM is no marker. -/
theorem class_and_no_marker {w : Word} {c : OpcodeClass} (h : opcodeOf w = c.code)
    (hs : c.code ≠ OpcodeClass.system.code) :
    classOf (opcodeOf w) = some c ∧ isMarkerWord w = false :=
  ⟨by rw [h, classOf_code], isMarkerWord_eq_false (h ▸ hs)⟩

/-- Opcodes of no class raise, whatever the rest of the word holds. -/
theorem decode_of_opcode_mem {os : List (BitVec 7)} (hos : ∀ o ∈ os, classOf o = none) {w : Word}
    (h : opcodeOf w ∈ os) : decode w = .err (.unrecognizedOpcode (opcodeOf w)) :=
  decode_of_classOf_none (hos _ h)

/-- Settles O27: each opcode is in no class, or its class rejects the funct3 or the funct7. -/
theorem excludedExtensionWordsRaise : Obligations.ExcludedExtensionWordsRaise := by
  refine ⟨fun w ho h7 => ?_, fun w ho h3 => ?_, fun w ho h3 => ?_, fun w ho h3 h7 => ?_,
    fun w => decode_of_opcode_mem (by decide)⟩
  · obtain ⟨hc, hm⟩ := class_and_no_marker (c := .op) ho (by decide)
    rw [decode_eq_invalidFunct7 hc hm rfl (by simp [funct7Raises, h7]), h7]
  · obtain ⟨hc, hm⟩ := class_and_no_marker (c := .load) ho (by decide)
    rw [decode_eq_invalidFunct3 hc hm (by rcases h3 with h3 | h3 <;> rw [h3] <;> rfl), ho]
  · obtain ⟨hc, hm⟩ := class_and_no_marker (c := .store) ho (by decide)
    rw [decode_eq_invalidFunct3 hc hm (by rw [h3]; rfl), ho, h3]
  · obtain ⟨hc, hm⟩ := class_and_no_marker (c := .opImm) ho (by decide)
    refine decode_eq_invalidFunct7 hc hm rfl ?_
    rcases h3 with h3 | h3 <;> rcases h7 with h7 | h7 <;> rw [h3, h7] <;> rfl

/-- Settles O28: SYSTEM 000 is a pair of R302 for every word that is no marker. -/
theorem otherSystemWordsRaise : Obligations.OtherSystemWordsRaise := by
  refine ⟨fun w ho h3 hecall hebreak hmret => ?_, by decide, by decide, by decide⟩
  have hc : classOf (opcodeOf w) = some .system := by rw [ho]; rfl
  have hm : isMarkerWord w = false := by
    simpa [isMarkerWord] using And.intro (And.intro hmret hecall) hebreak
  rw [decode_eq_invalidFunct3 hc hm (by rw [h3]; rfl), ho, h3]

/-- Every recognized opcode ends in 11 (R94). -/
theorem classOf_eq_none_of_low {code : BitVec 7} (h : code.extractLsb' 0 2 ≠ 0b11#2) :
    classOf code = none := by
  cases hc : classOf code with
  | none => rfl
  | some c =>
    obtain rfl := classOf_eq_some hc
    exact absurd (by cases c <;> rfl) h

/-- Settles O29: a recognized opcode ends in 11, and R72 has no class for the long-instruction and
custom opcodes. -/
theorem compressedLongAndCustomWordsRaise : Obligations.CompressedLongAndCustomWordsRaise := by
  refine ⟨fun w h => decode_of_classOf_none (classOf_eq_none_of_low ?_), by decide,
    fun w => decode_of_opcode_mem (by decide), fun w => decode_of_opcode_mem (by decide)⟩
  rwa [opcodeOf, BitVec.extractLsb'_extractLsb'_of_le (by decide)]

/-! ### The immediates bit by bit

The sign-extended ones repeat word[31] from the top bit of their field on. -/

theorem getLsbD_immI (w : Word) {k : Nat} (hk : k < 32) :
    (immI w).getLsbD k = if k < 11 then w.getLsbD (20 + k) else w.getLsbD 31 := by
  simp only [immI, BitVec.getLsbD_signExtend, BitVec.getLsbD_extractLsb',
    BitVec.msb_eq_getLsbD_last]
  interval_cases k <;> simp

theorem getLsbD_immS (w : Word) {k : Nat} (hk : k < 32) :
    (immS w).getLsbD k = if k < 5 then w.getLsbD (7 + k) else if k < 11 then w.getLsbD (20 + k)
      else w.getLsbD 31 := by
  simp only [immS, BitVec.getLsbD_signExtend, BitVec.getLsbD_append, BitVec.getLsbD_extractLsb',
    BitVec.msb_eq_getLsbD_last]
  interval_cases k <;> simp

theorem getLsbD_immB (w : Word) {k : Nat} (hk : k < 32) :
    (immB w).getLsbD k = if k = 0 then false else if k < 5 then w.getLsbD (7 + k)
      else if k < 11 then w.getLsbD (20 + k) else if k = 11 then w.getLsbD 7
      else w.getLsbD 31 := by
  simp only [immB, BitVec.getLsbD_signExtend, BitVec.getLsbD_append, BitVec.getLsbD_extractLsb',
    BitVec.msb_eq_getLsbD_last]
  interval_cases k <;> simp

theorem getLsbD_immU (w : Word) {k : Nat} (hk : k < 32) :
    (immU w).getLsbD k = if k < 12 then false else w.getLsbD k := by
  simp only [immU_cast, BitVec.getLsbD_cast, BitVec.getLsbD_append, BitVec.getLsbD_extractLsb']
  interval_cases k <;> simp

theorem getLsbD_immJ (w : Word) {k : Nat} (hk : k < 32) :
    (immJ w).getLsbD k = if k = 0 then false else if k < 11 then w.getLsbD (20 + k)
      else if k = 11 then w.getLsbD 20 else if k < 20 then w.getLsbD k else w.getLsbD 31 := by
  simp only [immJ, BitVec.getLsbD_signExtend, BitVec.getLsbD_append, BitVec.getLsbD_extractLsb',
    BitVec.msb_eq_getLsbD_last]
  interval_cases k <;> simp

/-- The range of R74 and R76 in the terms of `imm12Ok`. -/
theorem imm12Ok_iff_range (v : BitVec 32) :
    imm12Ok v = true ↔ -2048 ≤ v.toInt ∧ v.toInt ≤ 2047 := by
  simp [imm12Ok]

/-- An even pattern is an even two's-complement value. -/
theorem toInt_emod_two {v : BitVec 32} (h : v.toNat % 2 = 0) : v.toInt % 2 = 0 := by
  have hcond := BitVec.toInt_eq_toNat_cond v
  split at hcond <;> omega

/-- The range of R77 in the terms of `immBOk`. -/
theorem immBOk_range {v : BitVec 32} (h : immBOk v = true) :
    -4096 ≤ v.toInt ∧ v.toInt ≤ 4094 ∧ v.toInt % 2 = 0 := by
  simp only [immBOk, Bool.and_eq_true, decide_eq_true_eq, beq_iff_eq] at h
  obtain ⟨⟨hlo, hhi⟩, heven⟩ := h
  exact ⟨hlo, hhi, toInt_emod_two heven⟩

/-- The range of R79 in the terms of `immJOk`. -/
theorem immJOk_range {v : BitVec 32} (h : immJOk v = true) :
    -1048576 ≤ v.toInt ∧ v.toInt ≤ 1048574 ∧ v.toInt % 2 = 0 := by
  simp only [immJOk, Bool.and_eq_true, decide_eq_true_eq, beq_iff_eq] at h
  obtain ⟨⟨hlo, hhi⟩, heven⟩ := h
  exact ⟨hlo, hhi, toInt_emod_two heven⟩

/-- Settles O33. -/
theorem iAndSImmediateBits : Obligations.IAndSImmediateBits := by
  refine ⟨fun w k hk => ?_, fun w k h1 h2 => ?_, fun w k hk => ?_, fun w k h1 h2 => ?_,
    fun w k h1 h2 => ?_, fun w => (imm12Ok_iff_range _).1 (immI_ok w),
    fun w => (imm12Ok_iff_range _).1 (immS_ok w)⟩
  · rw [getLsbD_immI w (by omega), if_pos hk]
  · rw [getLsbD_immI w h2, if_neg (by omega)]
  · rw [getLsbD_immS w (by omega), if_pos hk]
  · rw [getLsbD_immS w (by omega), if_neg (by omega), if_pos h2]
  · rw [getLsbD_immS w h2, if_neg (by omega), if_neg (by omega)]

/-- The LOAD container is the field sign-extended to 16 bits. -/
theorem immL_eq_signExtend (w : Word) : immL w = (w.extractLsb' 20 12).signExtend 16 := by
  apply BitVec.eq_of_getLsbD_eq
  intro i hi
  simp only [immL, immI, BitVec.getLsbD_setWidth, BitVec.getLsbD_signExtend]
  simp [hi, show i < 32 by omega]

/-- The LOAD container as a number: the I-immediate modulo 2^16. -/
theorem toNat_immL (w : Word) : ((immL w).toNat : Int) = (immI w).toInt % 65536 := by
  have hcond := BitVec.toInt_eq_toNat_cond (immI w)
  rw [immL, BitVec.toNat_setWidth]
  split at hcond <;> omega

/-- Settles O34: `immL` keeps the sign, so that widening it gives `immI` back. -/
theorem loadImmediateIsLowHalfOfI : Obligations.LoadImmediateIsLowHalfOfI := by
  have hrange (w) := (imm12Ok_iff_range _).1 (immI_ok w)
  refine ⟨fun w => BitVec.setWidth_eq_extractLsb' (by decide), immL_eq_signExtend, fun w => ?_,
    fun w hpos => ?_, fun w hneg => ?_⟩
  · apply BitVec.eq_of_toInt_eq
    simp only [immL_eq_signExtend, immI, BitVec.toInt_signExtend_of_le (by decide : 12 ≤ 16),
      BitVec.toInt_signExtend_of_le (by decide : 12 ≤ 32),
      BitVec.toInt_signExtend_of_le (by decide : 16 ≤ 32)]
  · have hlow := toNat_immL w
    have hr := hrange w
    omega
  · have hlow := toNat_immL w
    have hr := hrange w
    omega

/-- Settles O35. -/
theorem branchImmediateBits : Obligations.BranchImmediateBits := by
  refine ⟨fun w => getLsbD_immB w (by decide), fun w k h1 h2 => ?_, fun w k h1 h2 => ?_,
    fun w => getLsbD_immB w (by decide), fun w k h1 h2 => ?_,
    fun w => immBOk_range (immB_ok w), by decide⟩
  · rw [getLsbD_immB w (by omega), if_neg (by omega), if_pos h2]
  · rw [getLsbD_immB w (by omega), if_neg (by omega), if_neg (by omega), if_pos h2]
  · rw [getLsbD_immB w h2, if_neg (by omega), if_neg (by omega), if_neg (by omega),
      if_neg (by omega)]

/-- Settles O36. -/
theorem upperImmediateBits : Obligations.UpperImmediateBits := by
  refine ⟨fun w k hk => ?_, fun w k h1 h2 => ?_, fun w => ?_⟩
  · rw [getLsbD_immU w (by omega), if_pos hk]
  · rw [getLsbD_immU w h2, if_neg (by omega)]
  · have hok := immU_ok w
    have hcond := BitVec.toInt_eq_toNat_cond (immU w)
    simp only [immUOk, beq_iff_eq] at hok
    split at hcond <;> omega

/-- Settles O37. -/
theorem jumpImmediateBits : Obligations.JumpImmediateBits := by
  refine ⟨fun w => getLsbD_immJ w (by decide), fun w k h1 h2 => ?_,
    fun w => getLsbD_immJ w (by decide), fun w k h1 h2 => ?_, fun w k h1 h2 => ?_,
    fun w => immJOk_range (immJ_ok w), by decide⟩
  · rw [getLsbD_immJ w (by omega), if_neg (by omega), if_pos h2]
  · rw [getLsbD_immJ w (by omega), if_neg (by omega), if_neg (by omega), if_neg (by omega),
      if_pos h2]
  · rw [getLsbD_immJ w h2, if_neg (by omega), if_neg (by omega), if_neg (by omega),
      if_neg (by omega)]

/-! ### The pseudo-instructions -/

/-- An expansion into well-formed variants assembles to words that decode to them (O12). -/
theorem assemblesTo_of_wellFormed {p : Pseudo} {is : List Instr} (he : expand p = is)
    (h : ∀ i ∈ is, i.wellFormed = true) : assemblesTo p is := by
  refine ⟨he, ?_⟩
  rw [he]
  exact List.map_congr_left fun i hi => decodeOfEncodeGivesVariantBack i (h i hi)

/-- A row of R104 with one base variant. -/
theorem assemblesTo_one {p : Pseudo} {i : Instr} (he : expand p = [i])
    (hi : i.wellFormed = true) : assemblesTo p [i] :=
  assemblesTo_of_wellFormed he (by simpa using hi)

/-- A sign-extended 12-bit part is in the range of R74. -/
theorem imm12Ok_lowerPart (v : BitVec 32) : imm12Ok (lowerPart v) = true := by
  have hlo := BitVec.le_toInt (v.extractLsb' 0 12)
  have hhi := BitVec.toInt_lt (x := v.extractLsb' 0 12)
  rw [imm12Ok_iff_range, lowerPart, BitVec.toInt_signExtend_of_le (by decide)]
  omega

/-- The lower part as a number: lo12, less 4096 (modulo 2^32) when its sign bit is set. -/
theorem toNat_lowerPart (v : BitVec 32) :
    (lowerPart v).toNat = v.toNat % 4096 + if v.getLsbD 11 then 4294963200 else 0 := by
  have hmsb : (v.extractLsb' 0 12).msb = v.getLsbD 11 := by
    simp [BitVec.msb_eq_getLsbD_last]
  rw [lowerPart, BitVec.toNat_signExtend, hmsb, BitVec.toNat_setWidth, BitVec.extractLsb'_toNat,
    Nat.shiftRight_zero]
  split <;> omega

/-- The upper part as a number: hi20, one more when the sign bit of lo12 is set, times 4096. -/
theorem toNat_upperPart (v : BitVec 32) : (upperPart v).toNat =
    (v.toNat / 4096 + if v.getLsbD 11 then 1 else 0) % 1048576 * 4096 := by
  have happ (a : BitVec 20) : (a ++ 0#12 : BitVec 32).toNat = a.toNat * 4096 := by
    rw [show (a ++ 0#12 : BitVec 32) = (a ++ 0#12).cast (by rfl) from rfl, BitVec.toNat_cast,
      BitVec.toNat_append]
    simp [Nat.shiftLeft_eq]
  rw [upperPart, happ, BitVec.toNat_add, BitVec.extractLsb'_toNat, Nat.shiftRight_eq_div_pow]
  cases v.getLsbD 11 <;> simp

theorem immUOk_upperPart (v : BitVec 32) : immUOk (upperPart v) = true := by
  rw [immUOk, toNat_upperPart, Nat.mul_mod_left]
  rfl

/-- R104: the parts add up, because the +1 makes up for a negative lower part. -/
theorem upperPart_add_lowerPart (v : BitVec 32) : upperPart v + lowerPart v = v := by
  apply BitVec.eq_of_toNat_eq
  rw [BitVec.toNat_add, toNat_upperPart, toNat_lowerPart]
  have hlt := v.isLt
  split <;> omega

/-- The model's upper part is R104's. -/
theorem hiPart_eq_upperPart (v : BitVec 32) : hiPart v = upperPart v :=
  (BitVec.eq_sub_iff_add_eq.2 (upperPart_add_lowerPart v)).symm

/-- A row of R104 with an upper and a lower part: `hi` and `lo` take the parts as their immediate. -/
theorem assemblesTo_parts {p : Pseudo} {hi lo : BitVec 32 → Instr} (v : BitVec 32)
    (he : expand p = [hi (hiPart v), lo (loPart v)])
    (hhi : ∀ u, immUOk u = true → (hi u).wellFormed = true)
    (hlo : ∀ u, imm12Ok u = true → (lo u).wellFormed = true) :
    assemblesTo p [hi (upperPart v), lo (lowerPart v)] := by
  refine assemblesTo_of_wellFormed (by rw [he, hiPart_eq_upperPart]; rfl) ?_
  simpa using And.intro (hhi _ (immUOk_upperPart v)) (hlo _ (imm12Ok_lowerPart v))

/-- Settles O60: every row expands to variants that are well formed for the operands it takes, so
their words decode to them (O12). -/
theorem pseudoInstructionsDecodeToExpansion : Obligations.PseudoInstructionsDecodeToExpansion := by
  refine ⟨assemblesTo_one rfl rfl, upperPart_add_lowerPart, fun rd imm hlo hhi => ?_,
    fun rd imm hout => ?_, fun rd rs => ?_, fun rs a b off hoff => ?_, fun off hoff => ?_,
    fun rs => ?_, assemblesTo_one rfl rfl, fun rd off => ?_, ?_, fun rd rs csr z => ?_,
    fun rd => ?_⟩
  · have hok := (imm12Ok_iff_range imm).2 ⟨hlo, hhi⟩
    exact assemblesTo_one (if_pos hok) hok
  · have hnok : ¬imm12Ok imm = true := by
      rw [imm12Ok_iff_range]
      omega
    exact assemblesTo_parts imm (if_neg hnok) (fun _ => id) (fun _ => id)
  · exact ⟨assemblesTo_one rfl rfl, assemblesTo_one rfl rfl, assemblesTo_one rfl rfl,
      assemblesTo_one rfl rfl, assemblesTo_one rfl rfl, assemblesTo_one rfl rfl,
      assemblesTo_one rfl rfl⟩
  · exact ⟨assemblesTo_one rfl hoff, assemblesTo_one rfl hoff, assemblesTo_one rfl hoff,
      assemblesTo_one rfl hoff, assemblesTo_one rfl hoff, assemblesTo_one rfl hoff,
      assemblesTo_one rfl hoff, assemblesTo_one rfl hoff, assemblesTo_one rfl hoff,
      assemblesTo_one rfl hoff⟩
  · exact ⟨assemblesTo_one rfl hoff, assemblesTo_one rfl hoff⟩
  · exact ⟨assemblesTo_one rfl rfl, assemblesTo_one rfl rfl⟩
  · exact ⟨assemblesTo_parts (hi := .auipc _) (lo := .jalr _ _) off rfl (fun _ => id) (fun _ => id),
      assemblesTo_parts (hi := .auipc _) (lo := .jalr _ _) off rfl (fun _ => id) (fun _ => id),
      assemblesTo_parts (hi := .auipc _) (lo := .addi _ _) off rfl (fun _ => id) (fun _ => id),
      assemblesTo_parts (hi := .auipc _) (lo := .addi _ _) off rfl (fun _ => id) (fun _ => id)⟩
  · exact ⟨assemblesTo_one rfl rfl, by decide⟩
  · exact ⟨assemblesTo_one rfl rfl, assemblesTo_one rfl rfl, assemblesTo_one rfl rfl,
      assemblesTo_one rfl rfl, assemblesTo_one rfl rfl, assemblesTo_one rfl rfl,
      assemblesTo_one rfl rfl⟩
  · exact ⟨assemblesTo_one rfl rfl, assemblesTo_one rfl rfl, assemblesTo_one rfl rfl⟩

/-- Settles O10: `step` is one match on the decode of the presented word. -/
theorem stepRunsDecodedInstruction : Obligations.StepRunsDecodedInstruction :=
  ⟨fun s i h => by rw [step, h], fun s e h => by rw [step, h], fun _ => rfl⟩

/-- Settles O51. -/
theorem sampleWordsDecode : Obligations.SampleWordsDecode :=
  ⟨by decide, by decide, by decide, by decide⟩

end Sys2Proof

/-! ## Proofs of the family 40_upper_immediate

The handlers of LUI, AUIPC and JAL check no field past the opcode: rd always resolves (R25), so each
has one answer. -/

namespace Sys2Proof

/-- R120. -/
theorem decode_of_opcode_lui {w : Word} (h : opcodeOf w = OpcodeClass.lui.code) :
    decode w = .ok ⟨.w32, .lui ⟨rdOf w⟩ (immU w)⟩ := by
  rw [decode_of_code h, handler, decodeLui, withReg_eq, reconstruct_u, emitOk_eq]

/-- R121. -/
theorem decode_of_opcode_auipc {w : Word} (h : opcodeOf w = OpcodeClass.auipc.code) :
    decode w = .ok ⟨.w32, .auipc ⟨rdOf w⟩ (immU w)⟩ := by
  rw [decode_of_code h, handler, decodeAuipc, withReg_eq, reconstruct_u, emitOk_eq]

/-- R125. -/
theorem decode_of_opcode_jal {w : Word} (h : opcodeOf w = OpcodeClass.jal.code) :
    decode w = .ok ⟨.w32, .jal ⟨rdOf w⟩ (immJ w)⟩ := by
  rw [decode_of_code h, handler, decodeJal, withReg_eq, reconstruct_j, emitOk_eq]

/-- Settles O41: the model's `rdOf`, `immU` and `immJ` are the fields as R71, R78 and R79 write
them. -/
theorem upperImmediateAndJalWordsDecode : Obligations.UpperImmediateAndJalWordsDecode :=
  ⟨fun _ => decode_of_opcode_lui, fun _ => decode_of_opcode_auipc, fun _ => decode_of_opcode_jal,
    by decide, by decide, by decide, by decide, by decide, by decide⟩

end Sys2Proof

/-! ## Proofs of the family 41_jumps

The handler of JALR checks funct3 and then answers with one variant, since rd and rs1 always
resolve (R25). -/

namespace Sys2Proof

/-- R126 with the funct3 it admits. -/
theorem decode_of_opcode_jalr {w : Word} (h : opcodeOf w = OpcodeClass.jalr.code)
    (h3 : funct3Of w = 0b000#3) :
    decode w = .ok ⟨.w32, .jalr ⟨rdOf w⟩ ⟨rs1Of w⟩ (immI w)⟩ := by
  rw [decode_of_code h]
  simp [handler, decodeJalr, h3]

/-- R126 with any other funct3: a pair of R302, and no JALR word is a marker. -/
theorem decode_of_opcode_jalr_of_funct3_ne {w : Word} (h : opcodeOf w = OpcodeClass.jalr.code)
    (h3 : funct3Of w ≠ 0b000#3) :
    decode w = .err (.invalidFunct3 OpcodeClass.jalr.code (funct3Of w)) := by
  obtain ⟨hc, hm⟩ := class_and_no_marker h (by decide)
  rw [decode_eq_invalidFunct3 hc hm (bne_iff_ne.2 h3), h]

/-- Settles O42: the model's fields and `immI` are those of R71 and R74. -/
theorem jalrWordsDecode : Obligations.JalrWordsDecode :=
  ⟨fun _ => decode_of_opcode_jalr, fun _ => decode_of_opcode_jalr_of_funct3_ne,
    by decide, by decide, by decide⟩

end Sys2Proof

/-! ## Proofs of the family 42_branches

The handler of BRANCH looks funct3 up in its row of R89 and takes its operands from the same fields
for all six variants, so there is one rule for a funct3 the row holds and one for any other. -/

namespace Sys2Proof

/-- R130 with a funct3 of the BRANCH row. -/
theorem decode_of_opcode_branch {w : Word} {f3 : BitVec 3}
    {v : Register → Register → BitVec 32 → Instr} (hv : branchVariant f3 = some v)
    (h : opcodeOf w = OpcodeClass.branch.code) (h3 : funct3Of w = f3) :
    decode w = .ok ⟨.w32, v ⟨rs1Of w⟩ ⟨rs2Of w⟩ (immB w)⟩ := by
  rw [decode_of_code h]
  simp [handler, decodeBranch, h3, hv]

/-- R130 with a funct3 outside the BRANCH row. -/
theorem decode_of_opcode_branch_of_no_variant {w : Word} {f3 : BitVec 3}
    (hv : branchVariant f3 = none) (h : opcodeOf w = OpcodeClass.branch.code)
    (h3 : funct3Of w = f3) :
    decode w = .err (.invalidFunct3 OpcodeClass.branch.code f3) := by
  rw [decode_of_code h]
  simp [handler, decodeBranch, h, h3, hv]

/-- Settles O43: each funct3 is looked up in the BRANCH row; `branchOffset` is `immB`. -/
theorem branchWordsDecode : Obligations.BranchWordsDecode :=
  ⟨fun _ h => ⟨decode_of_opcode_branch rfl h, decode_of_opcode_branch rfl h,
      decode_of_opcode_branch rfl h, decode_of_opcode_branch rfl h,
      decode_of_opcode_branch rfl h, decode_of_opcode_branch rfl h,
      decode_of_opcode_branch_of_no_variant rfl h,
      decode_of_opcode_branch_of_no_variant rfl h⟩,
    by decide, by decide, by decide, by decide, by decide, by decide, by decide⟩

end Sys2Proof

/-! ## Proofs of the family 43_loads

The handler of LOAD looks funct3 up in its row of R89 and takes its operands from the same fields
for all five variants, the offset from the 16-bit container of R75. -/

namespace Sys2Proof
open Machine

/-- The 16-bit container as R140 writes it: the low half of the I-immediate. -/
theorem immL_eq_extractLsb'_immI (w : Word) : immL w = (immI w).extractLsb' 0 16 :=
  BitVec.setWidth_eq_extractLsb' (by decide)

/-- R140 with a funct3 of the LOAD row. -/
theorem decode_of_opcode_load {w : Word} {f3 : BitVec 3}
    {v : Register → Register → BitVec 16 → Instr} (hv : loadVariant f3 = some v)
    (h : opcodeOf w = OpcodeClass.load.code) (h3 : funct3Of w = f3) :
    decode w = .ok ⟨.w32, v ⟨rdOf w⟩ ⟨rs1Of w⟩ ((immI w).extractLsb' 0 16)⟩ := by
  rw [decode_of_code h, ← immL_eq_extractLsb'_immI]
  simp [handler, decodeLoad, h3, hv]

/-- R140 with a funct3 outside the LOAD row: a pair of R302, and no LOAD word is a marker. -/
theorem decode_of_opcode_load_of_funct3Raises {w : Word} (h : opcodeOf w = OpcodeClass.load.code)
    (h3 : funct3Raises .load (funct3Of w) = true) :
    decode w = .err (.invalidFunct3 OpcodeClass.load.code (funct3Of w)) := by
  obtain ⟨hc, hm⟩ := class_and_no_marker h (by decide)
  rw [decode_eq_invalidFunct3 hc hm h3, h]

/-- The three funct3 values R140 names as errors are among R302's pairs. -/
theorem funct3Raises_load_of_mem :
    ∀ f3 ∈ [0b011#3, 0b110#3, 0b111#3], funct3Raises .load f3 = true := by
  decide

/-- Settles O44: each funct3 is looked up in the LOAD row or is one of R302's pairs; the model's
fields and `immI` are those of R71 and R74. -/
theorem loadWordsDecode : Obligations.LoadWordsDecode :=
  ⟨fun _ h => ⟨decode_of_opcode_load rfl h, decode_of_opcode_load rfl h,
      decode_of_opcode_load rfl h, decode_of_opcode_load rfl h, decode_of_opcode_load rfl h,
      fun h3 => decode_of_opcode_load_of_funct3Raises h (funct3Raises_load_of_mem _ h3)⟩,
    by decide, by decide, by decide, by decide, by decide⟩

end Sys2Proof

/-! ## Proofs of the family 44_stores

The handler of STORE looks funct3 up in its row of R89 and takes its operands from the same fields
for all three variants; a word has no rd field there (R150). -/

namespace Sys2Proof
open Machine

/-- R302 for any opcode but SYSTEM, the only one whose words can be markers. -/
theorem decode_of_code_of_funct3Raises {w : Word} {c : OpcodeClass} (h : opcodeOf w = c.code)
    (hs : c.code ≠ OpcodeClass.system.code) (h3 : funct3Raises c (funct3Of w) = true) :
    decode w = .err (.invalidFunct3 c.code (funct3Of w)) := by
  obtain ⟨hc, hm⟩ := class_and_no_marker h hs
  rw [decode_eq_invalidFunct3 hc hm h3, h]

/-- R150 with a funct3 of the STORE row. -/
theorem decode_of_opcode_store {w : Word} {f3 : BitVec 3}
    {v : Register → Register → BitVec 32 → Instr} (hv : storeVariant f3 = some v)
    (h : opcodeOf w = OpcodeClass.store.code) (h3 : funct3Of w = f3) :
    decode w = .ok ⟨.w32, v ⟨rs1Of w⟩ ⟨rs2Of w⟩ (immS w)⟩ := by
  rw [decode_of_code h]
  simp [handler, decodeStore, h3, hv]

/-- The five funct3 values R150 names as errors are among R302's pairs. -/
theorem funct3Raises_store_of_mem :
    ∀ f3 ∈ [0b011#3, 0b100#3, 0b101#3, 0b110#3, 0b111#3], funct3Raises .store f3 = true := by
  decide

/-- Settles O45: each funct3 is looked up in the STORE row or is one of R302's pairs; the model's
fields and `immS` are those of R71 and R76. -/
theorem storeWordsDecode : Obligations.StoreWordsDecode :=
  ⟨fun _ h => ⟨decode_of_opcode_store rfl h, decode_of_opcode_store rfl h,
      decode_of_opcode_store rfl h,
      fun h3 => decode_of_code_of_funct3Raises (c := .store) h (by decide)
        (funct3Raises_store_of_mem _ h3)⟩,
    by decide, by decide, by decide, by decide⟩

end Sys2Proof

/-! ## Proofs of the family 45_op_imm

The handler of OP-IMM looks funct3 up in its row of R89; the two shift cells the row leaves out are
looked up by funct7 in R90. The operands come from the same fields for all variants of a kind. -/

namespace Sys2Proof
open Machine

/-- R303 for any opcode but SYSTEM, the only one whose words can be markers. -/
theorem decode_of_code_of_funct7Raises {w : Word} {c : OpcodeClass} (h : opcodeOf w = c.code)
    (hs : c.code ≠ OpcodeClass.system.code) (h3 : funct3Raises c (funct3Of w) = false)
    (h7 : funct7Raises c (funct3Of w) (funct7Of w) = true) :
    decode w = .err (.invalidFunct7 (funct3Of w) (funct7Of w)) := by
  obtain ⟨hc, hm⟩ := class_and_no_marker h hs
  exact decode_eq_invalidFunct7 hc hm h3 h7

/-- R161 to R166: a funct3 of the OP-IMM row, whatever funct7 holds. -/
theorem decode_of_opcode_opImm {w : Word} {f3 : BitVec 3}
    {v : Register → Register → BitVec 32 → Instr} (hv : opImmVariant f3 = some v)
    (h : opcodeOf w = OpcodeClass.opImm.code) (h3 : funct3Of w = f3) :
    decode w = .ok ⟨.w32, v ⟨rdOf w⟩ ⟨rs1Of w⟩ (immI w)⟩ := by
  rw [decode_of_code h]
  simp [handler, decodeOpImm, h3, hv]

/-- R167 to R169: a shift cell of R90. -/
theorem decode_of_opcode_opImm_shift {w : Word} {f3 : BitVec 3} {f7 : BitVec 7}
    {v : Register → Register → BitVec 5 → Instr} (hn : opImmVariant f3 = none)
    (hv : shiftVariant f3 f7 = some v) (h : opcodeOf w = OpcodeClass.opImm.code)
    (h3 : funct3Of w = f3) (h7 : funct7Of w = f7) :
    decode w = .ok ⟨.w32, v ⟨rdOf w⟩ ⟨rs1Of w⟩ (shamtOf w)⟩ := by
  rw [decode_of_code h]
  simp [handler, decodeOpImm, h3, h7, hn, hv]

/-- A shift's funct3 with a funct7 of R303 (D3). -/
theorem decode_of_opcode_opImm_of_funct7Raises {w : Word} {f3 : BitVec 3}
    (h : opcodeOf w = OpcodeClass.opImm.code) (h3 : funct3Of w = f3)
    (h7 : funct7Raises .opImm f3 (funct7Of w) = true) :
    decode w = .err (.invalidFunct7 f3 (funct7Of w)) := by
  subst h3
  exact decode_of_code_of_funct7Raises h (by decide) rfl h7

/-- The left shift admits one funct7 of the 128 (D3). -/
theorem funct7Raises_opImm_shiftLeft {f7 : BitVec 7} (h : f7 ≠ 0b0000000#7) :
    funct7Raises .opImm 0b001 f7 = true := by
  simp [funct7Raises, h]

/-- The right shifts admit two funct7 of the 128 (D3). -/
theorem funct7Raises_opImm_shiftRight {f7 : BitVec 7} (h0 : f7 ≠ 0b0000000#7)
    (h1 : f7 ≠ 0b0100000#7) : funct7Raises .opImm 0b101 f7 = true := by
  simp [funct7Raises, h0, h1]

/-- Settles O46: funct3 is looked up in the OP-IMM row, or with funct7 in the shift cells, or the
pair is one of R303's; the model's fields and `immI` are those of R71 and R74. -/
theorem opImmWordsDecode : Obligations.OpImmWordsDecode :=
  ⟨fun _ h => ⟨decode_of_opcode_opImm rfl h, decode_of_opcode_opImm rfl h,
      decode_of_opcode_opImm rfl h, decode_of_opcode_opImm rfl h,
      decode_of_opcode_opImm rfl h, decode_of_opcode_opImm rfl h⟩,
    fun _ h => ⟨decode_of_opcode_opImm_shift rfl rfl h,
      fun h3 h7 => decode_of_opcode_opImm_of_funct7Raises h h3 (funct7Raises_opImm_shiftLeft h7),
      decode_of_opcode_opImm_shift rfl rfl h, decode_of_opcode_opImm_shift rfl rfl h,
      fun h3 h0 h1 => decode_of_opcode_opImm_of_funct7Raises h h3
        (funct7Raises_opImm_shiftRight h0 h1)⟩,
    by decide, by decide, by decide, by decide, by decide, by decide, by decide, by decide,
    by decide, by decide, by decide, by decide⟩

end Sys2Proof

/-! ## Proofs of the family 46_op

The handler of OP looks funct3 and all seven bits of funct7 up together in R90 and takes its three
registers from the same fields for all ten variants, so there is one rule for a cell R90 holds and
one for the pairs of R303. -/

namespace Sys2Proof
open Machine

/-- R181 to R190: a cell of R90. -/
theorem decode_of_opcode_op {w : Word} {f3 : BitVec 3} {f7 : BitVec 7}
    {v : Register → Register → Register → Instr} (hv : opVariant f3 f7 = some v)
    (h : opcodeOf w = OpcodeClass.op.code) (h3 : funct3Of w = f3) (h7 : funct7Of w = f7) :
    decode w = .ok ⟨.w32, v ⟨rdOf w⟩ ⟨rs1Of w⟩ ⟨rs2Of w⟩⟩ := by
  rw [decode_of_code h]
  simp [handler, decodeOp, h3, h7, hv]

/-- R180: a pair of R303 (D3); no funct3 of OP is an error by itself. -/
theorem decode_of_opcode_op_of_funct7Raises {w : Word} (h : opcodeOf w = OpcodeClass.op.code)
    (h7 : funct7Raises .op (funct3Of w) (funct7Of w) = true) :
    decode w = .err (.invalidFunct7 (funct3Of w) (funct7Of w)) :=
  decode_of_code_of_funct7Raises h (by decide) rfl h7

/-- ADD and SUB share one funct3, SRL and SRA another: each admits two funct7 of the 128 (D3). -/
theorem funct7Raises_op_of_two_variants {f3 : BitVec 3} {f7 : BitVec 7}
    (h3 : f3 = 0b000#3 ∨ f3 = 0b101#3) (h0 : f7 ≠ 0b0000000#7) (h1 : f7 ≠ 0b0100000#7) :
    funct7Raises .op f3 f7 = true := by
  obtain rfl | rfl := h3 <;> simp [funct7Raises, h0, h1]

/-- Every other funct3 admits one funct7 of the 128 (D3). -/
theorem funct7Raises_op_of_one_variant {f3 : BitVec 3} {f7 : BitVec 7} (hadd : f3 ≠ 0b000#3)
    (hsrl : f3 ≠ 0b101#3) (h0 : f7 ≠ 0b0000000#7) : funct7Raises .op f3 f7 = true := by
  simp [funct7Raises, hadd, hsrl, h0]

/-- Settles O47: funct3 and funct7 are looked up in the cells of R90, or are one of R303's pairs;
the model's fields are those of R71. -/
theorem opWordsDecode : Obligations.OpWordsDecode :=
  ⟨fun _ h => ⟨decode_of_opcode_op rfl h, decode_of_opcode_op rfl h, decode_of_opcode_op rfl h,
      decode_of_opcode_op rfl h, decode_of_opcode_op rfl h, decode_of_opcode_op rfl h,
      decode_of_opcode_op rfl h, decode_of_opcode_op rfl h, decode_of_opcode_op rfl h,
      decode_of_opcode_op rfl h,
      fun h3 h0 h1 => decode_of_opcode_op_of_funct7Raises h
        (funct7Raises_op_of_two_variants h3 h0 h1),
      fun hadd hsrl h0 => decode_of_opcode_op_of_funct7Raises h
        (funct7Raises_op_of_one_variant hadd hsrl h0)⟩,
    by decide, by decide, by decide, by decide, by decide, by decide, by decide, by decide,
    by decide, by decide, by decide, by decide, by decide⟩

end Sys2Proof

/-! ## Proofs of the family 47_fence_system

The handler of MISC-MEM looks at funct3 alone. The handler of SYSTEM compares the whole word with the
markers and then looks funct3 up in the two CSR rows of R89, so past the markers there is one rule
for each row and one for a funct3 that neither row holds. -/

namespace Sys2Proof
open Machine

/-- R201. -/
theorem decode_of_opcode_fence {w : Word} (h : opcodeOf w = OpcodeClass.miscMem.code)
    (h3 : funct3Of w = 0b000#3) : decode w = .ok ⟨.w32, .fence⟩ := by
  rw [decode_of_code h]
  simp [handler, decodeMiscMem, h3]

/-- R202. -/
theorem decode_of_opcode_fenceI {w : Word} (h : opcodeOf w = OpcodeClass.miscMem.code)
    (h3 : funct3Of w = 0b001#3) : decode w = .ok ⟨.w32, .fenceI⟩ := by
  rw [decode_of_code h]
  simp [handler, decodeMiscMem, h3]

/-- R200 names every funct3 but those of FENCE and FENCE.I as an error. -/
theorem funct3Raises_miscMem {f3 : BitVec 3} (hfence : f3 ≠ 0b000#3) (hfenceI : f3 ≠ 0b001#3) :
    funct3Raises .miscMem f3 = true := by
  simp [funct3Raises, hfence, hfenceI]

/-- Settles O48: FENCE, FENCE.I, or one of R302's pairs; no MISC-MEM word is a marker. -/
theorem miscMemWordsDecode : Obligations.MiscMemWordsDecode :=
  ⟨fun _ h => ⟨decode_of_opcode_fence h, decode_of_opcode_fenceI h,
      fun hfence hfenceI => decode_of_code_of_funct3Raises (c := .miscMem) h (by decide)
        (funct3Raises_miscMem hfence hfenceI)⟩,
    by decide, by decide, by decide, by decide, by decide, by decide⟩

/-- R203 with a funct3 of the register-source CSR row, which no marker has. -/
theorem decode_of_opcode_csrReg {w : Word} {f3 : BitVec 3}
    {v : Register → Register → BitVec 12 → Instr} (hv : csrRegVariant f3 = some v)
    (h : opcodeOf w = OpcodeClass.system.code) (h3 : funct3Of w = f3) :
    decode w = .ok ⟨.w32, v ⟨rdOf w⟩ ⟨rs1Of w⟩ (csrOf w)⟩ := by
  subst h3
  have h0 : funct3Of w ≠ 0#3 := fun h0 => by simp [csrRegVariant, h0] at hv
  rw [decode_system (ne_markers h0) h]
  simp [hv]

/-- R203 with a funct3 of the immediate CSR row, which no marker has. -/
theorem decode_of_opcode_csrImm {w : Word} {f3 : BitVec 3}
    {v : Register → BitVec 5 → BitVec 12 → Instr} (hn : csrRegVariant f3 = none)
    (hv : csrImmVariant f3 = some v) (h : opcodeOf w = OpcodeClass.system.code)
    (h3 : funct3Of w = f3) :
    decode w = .ok ⟨.w32, v ⟨rdOf w⟩ (zimmOf w) (csrOf w)⟩ := by
  subst h3
  have h0 : funct3Of w ≠ 0#3 := fun h0 => by simp [csrImmVariant, h0] at hv
  rw [decode_system (ne_markers h0) h]
  simp [hn, hv]

/-- R203 past the markers, with a funct3 of neither CSR row (D6). -/
theorem decode_of_opcode_system_of_no_variant {w : Word} {f3 : BitVec 3}
    (hn : csrRegVariant f3 = none) (hn' : csrImmVariant f3 = none)
    (hm : w ≠ mretWord ∧ w ≠ ecallWord ∧ w ≠ ebreakWord)
    (h : opcodeOf w = OpcodeClass.system.code) (h3 : funct3Of w = f3) :
    decode w = .err (.invalidFunct3 OpcodeClass.system.code f3) := by
  rw [decode_system hm h]
  simp [h, h3, hn, hn']

/-- R203: every funct3 but 000 and 100 is in one of the two CSR rows. -/
theorem exists_csr_decode {w : Word} (h : opcodeOf w = OpcodeClass.system.code)
    (h000 : funct3Of w ≠ 0b000#3) (h100 : funct3Of w ≠ 0b100#3) :
    ∃ i : Instr, decode w = .ok ⟨.w32, i⟩ ∧ carriesCsr i.tag = true := by
  rcases funct3_cases (funct3Of w) with h3 | h3 | h3 | h3 | h3 | h3 | h3 | h3
  · exact absurd h3 h000
  · exact ⟨_, decode_of_opcode_csrReg rfl h h3, rfl⟩
  · exact ⟨_, decode_of_opcode_csrReg rfl h h3, rfl⟩
  · exact ⟨_, decode_of_opcode_csrReg rfl h h3, rfl⟩
  · exact absurd h3 h100
  · exact ⟨_, decode_of_opcode_csrImm rfl rfl h h3, rfl⟩
  · exact ⟨_, decode_of_opcode_csrImm rfl rfl h h3, rfl⟩
  · exact ⟨_, decode_of_opcode_csrImm rfl rfl h h3, rfl⟩

/-- Settles O49: the markers and the sample words are evaluated; any other SYSTEM word is looked up
in the CSR rows, which hold all funct3 values but 000 and 100. -/
theorem systemWordsDecode : Obligations.SystemWordsDecode :=
  ⟨by decide, by decide, by decide,
    fun _ h hmret hecall hebreak =>
      ⟨decode_of_opcode_system_of_no_variant rfl rfl ⟨hmret, hecall, hebreak⟩ h,
        decode_of_opcode_system_of_no_variant rfl rfl ⟨hmret, hecall, hebreak⟩ h,
        exists_csr_decode h⟩,
    by decide, by decide, by decide⟩

end Sys2Proof

/-! ## Proofs of the families 48_csr, 60_exceptions and 70_reset_and_hazards

The CSR words are looked up in the two rows of R89. For each error kind there is one lemma that says
exactly which words raise it, in terms of the class of the opcode and the checks of `Safety`, and one
that says which field values a check rejects; a rule's table is the two together. The hazard
statements follow from the equation of the step. -/

namespace Sys2Proof
open Machine

/-! ### The CSR forms -/

/-- Settles O50: each funct3 is in the register-source or in the immediate row of R89; the model's
fields are those of R71. -/
theorem csrWordsDecode : Obligations.CsrWordsDecode :=
  ⟨fun _ h => ⟨decode_of_opcode_csrReg rfl h, decode_of_opcode_csrReg rfl h,
      decode_of_opcode_csrReg rfl h, decode_of_opcode_csrImm rfl rfl h,
      decode_of_opcode_csrImm rfl rfl h, decode_of_opcode_csrImm rfl rfl h⟩,
    by decide, by decide, by decide, by decide, by decide, by decide, by decide⟩

/-! ### UnrecognizedOpcode -/

/-- The words that raise kind 0. -/
theorem decode_eq_unrecognizedOpcode_iff {w : Word} {o : BitVec 7} :
    decode w = .err (.unrecognizedOpcode o) ↔ o = opcodeOf w ∧ classOf o = none := by
  refine ⟨fun h => ?_, fun ⟨ho, hc⟩ => ho ▸ decode_of_classOf_none (ho ▸ hc)⟩
  have hcase := decode_cases w
  rw [h] at hcase
  cases hcase with
  | unrecognized hc => exact ⟨rfl, hc⟩

/-- The classes of R72 have eleven opcode values between them. -/
theorem classOf_eq_none_iff {o : BitVec 7} :
    classOf o = none ↔ o ∉ opcodeClasses.map OpcodeClass.code := by
  simp only [classOf, List.find?_eq_none, beq_iff_eq, List.mem_map, not_exists, not_and]

/-- 117 of the 128 opcode values are in no class. -/
theorem length_filter_classOf_eq_none :
    ((List.range 128).filter (fun n => classOf (BitVec.ofNat 7 n) == none)).length = 117 := by
  rfl

/-- Settles O21: the eleven values are the opcodes of the classes, in the order of R72. -/
theorem unrecognizedOpcodeExactly : Obligations.UnrecognizedOpcodeExactly :=
  ⟨fun _ _ => decode_eq_unrecognizedOpcode_iff.trans (and_congr_right' classOf_eq_none_iff),
    length_filter_classOf_eq_none, by decide, by decide, by decide⟩

/-! ### InvalidFunct3 -/

/-- The words that raise kind 1. -/
theorem decode_eq_invalidFunct3_iff {w : Word} {o : BitVec 7} {f3 : BitVec 3} :
    decode w = .err (.invalidFunct3 o f3) ↔ o = opcodeOf w ∧ f3 = funct3Of w ∧
      isMarkerWord w = false ∧ ∃ c : OpcodeClass, o = c.code ∧ funct3Raises c f3 = true := by
  constructor
  · intro h
    have hcase := decode_cases w
    rw [h] at hcase
    cases hcase with
    | funct3 c hc hm h3 => exact ⟨rfl, rfl, hm, c, classOf_eq_some hc, h3⟩
  · rintro ⟨rfl, rfl, hm, c, ho, h3⟩
    exact decode_eq_invalidFunct3 (by rw [ho, classOf_code]) hm h3

/-- The funct3 values R302 lists for each class; SYSTEM's 000 is meant for words that are no
marker. -/
def undefinedFunct3 : OpcodeClass → List (BitVec 3)
  | .load => [0b011, 0b110, 0b111]
  | .store => [0b011, 0b100, 0b101, 0b110, 0b111]
  | .branch => [0b010, 0b011]
  | .jalr => [0b001, 0b010, 0b011, 0b100, 0b101, 0b110, 0b111]
  | .miscMem => [0b010, 0b011, 0b100, 0b101, 0b110, 0b111]
  | .system => [0b100, 0b000]
  | .lui | .auipc | .jal | .opImm | .op => []

/-- `funct3Raises` rejects exactly the values R302 lists. -/
theorem funct3Raises_iff_mem {c : OpcodeClass} {f3 : BitVec 3} :
    funct3Raises c f3 = true ↔ f3 ∈ undefinedFunct3 c := by
  cases c <;> revert f3 <;> decide

/-- The three comparisons of R203. -/
theorem isMarkerWord_eq_false_iff {w : Word} :
    isMarkerWord w = false ↔ w ≠ 0x00000073 ∧ w ≠ 0x00100073 ∧ w ≠ 0x30200073 := by
  simp only [isMarkerWord, Bool.or_eq_false_iff, beq_eq_false_iff_ne]
  tauto

/-- Every marker has funct3 000. -/
theorem isMarkerWord_eq_false_of_funct3_ne {w : Word} (h : funct3Of w ≠ 0b000#3) :
    isMarkerWord w = false := by
  obtain ⟨hmret, hecall, hebreak⟩ := ne_markers h
  exact isMarkerWord_eq_false_iff.2 ⟨hecall, hebreak, hmret⟩

/-- A funct3 of the list raises on every word of a class other than SYSTEM. -/
theorem decode_of_mem_undefinedFunct3 {w : Word} {c : OpcodeClass} (h : opcodeOf w = c.code)
    (hs : c.code ≠ OpcodeClass.system.code) (h3 : funct3Of w ∈ undefinedFunct3 c) :
    decode w = .err (.invalidFunct3 (opcodeOf w) (funct3Of w)) :=
  h ▸ decode_of_code_of_funct3Raises h hs (funct3Raises_iff_mem.2 h3)

/-- Settles O22: each class contributes the row of R302 that lists its undefined funct3 values; of
SYSTEM's two, 000 excludes the markers and 100 is the funct3 of none. -/
theorem invalidFunct3Exactly : Obligations.InvalidFunct3Exactly := by
  intro w o f3
  constructor
  · intro h
    obtain ⟨ho, hf, hm, c, hc, h3⟩ := decode_eq_invalidFunct3_iff.1 h
    have hmem := funct3Raises_iff_mem.1 h3
    refine ⟨ho, hf, ?_⟩
    cases c with
    | load => exact .inl ⟨hc, hmem⟩
    | store => exact .inr (.inl ⟨hc, hmem⟩)
    | branch => exact .inr (.inr (.inl ⟨hc, hmem⟩))
    | jalr => exact .inr (.inr (.inr (.inl ⟨hc, hmem⟩)))
    | miscMem => exact .inr (.inr (.inr (.inr (.inl ⟨hc, hmem⟩))))
    | system =>
      refine .inr (.inr (.inr (.inr (.inr ⟨hc, ?_⟩))))
      exact (List.mem_pair.1 hmem).imp_right fun h0 => ⟨h0, isMarkerWord_eq_false_iff.1 hm⟩
    | lui | auipc | jal | opImm | op => nomatch hmem
  · rintro ⟨rfl, rfl, ⟨hc, h3⟩ | ⟨hc, h3⟩ | ⟨hc, h3⟩ | ⟨hc, h3⟩ | ⟨hc, h3⟩ | ⟨hc, h3⟩⟩
    · exact decode_of_mem_undefinedFunct3 (c := .load) hc (by decide) h3
    · exact decode_of_mem_undefinedFunct3 (c := .store) hc (by decide) h3
    · exact decode_of_mem_undefinedFunct3 (c := .branch) hc (by decide) h3
    · exact decode_of_mem_undefinedFunct3 (c := .jalr) hc (by decide) h3
    · exact decode_of_mem_undefinedFunct3 (c := .miscMem) hc (by decide) h3
    · have hclass : classOf (opcodeOf w) = some .system := congrArg classOf hc
      have hmem : funct3Of w ∈ undefinedFunct3 .system :=
        List.mem_pair.2 (h3.imp_right fun h0 => h0.1)
      have hm : isMarkerWord w = false := by
        obtain h100 | ⟨-, hne⟩ := h3
        · exact isMarkerWord_eq_false_of_funct3_ne (ne_of_eq_of_ne h100 (by decide))
        · exact isMarkerWord_eq_false_iff.2 hne
      exact decode_eq_invalidFunct3 hclass hm (funct3Raises_iff_mem.2 hmem)

/-! ### InvalidFunct7 -/

/-- The words that raise kind 2: no class that checks funct7 rejects a funct3 or has a marker. -/
theorem decode_eq_invalidFunct7_iff {w : Word} {f3 : BitVec 3} {f7 : BitVec 7} :
    decode w = .err (.invalidFunct7 f3 f7) ↔ f3 = funct3Of w ∧ f7 = funct7Of w ∧
      (opcodeOf w = OpcodeClass.op.code ∧ funct7Raises .op f3 f7 = true ∨
        opcodeOf w = OpcodeClass.opImm.code ∧ funct7Raises .opImm f3 f7 = true) := by
  constructor
  · intro h
    have hcase := decode_cases w
    rw [h] at hcase
    cases hcase with
    | funct7 c hc _ _ h7 =>
      obtain rfl | rfl := op_or_opImm_of_funct7Raises h7
      · exact ⟨rfl, rfl, .inl ⟨classOf_eq_some hc, h7⟩⟩
      · exact ⟨rfl, rfl, .inr ⟨classOf_eq_some hc, h7⟩⟩
  · rintro ⟨rfl, rfl, ⟨ho, h7⟩ | ⟨ho, h7⟩⟩
    · exact decode_of_opcode_op_of_funct7Raises ho h7
    · exact decode_of_opcode_opImm_of_funct7Raises ho rfl h7

/-- R303 for OP: the funct3 values with two variants, and the others. -/
theorem funct7Raises_op_iff {f3 : BitVec 3} {f7 : BitVec 7} : funct7Raises .op f3 f7 = true ↔
    (f3 = 0b000#3 ∨ f3 = 0b101#3) ∧ f7 ≠ 0b0000000#7 ∧ f7 ≠ 0b0100000#7 ∨
      f3 ≠ 0b000#3 ∧ f3 ≠ 0b101#3 ∧ f7 ≠ 0b0000000#7 := by
  by_cases h : f3 = 0b000#3 ∨ f3 = 0b101#3
  · obtain rfl | rfl := h <;> simp [funct7Raises]
  · obtain ⟨h000, h101⟩ := not_or.1 h
    simp [funct7Raises, h000, h101]

/-- R303 for OP-IMM: the left shift and the right shifts. -/
theorem funct7Raises_opImm_iff {f3 : BitVec 3} {f7 : BitVec 7} :
    funct7Raises .opImm f3 f7 = true ↔ f3 = 0b001#3 ∧ f7 ≠ 0b0000000#7 ∨
      f3 = 0b101#3 ∧ f7 ≠ 0b0000000#7 ∧ f7 ≠ 0b0100000#7 := by
  by_cases hleft : f3 = 0b001#3
  · subst hleft
    simp [funct7Raises]
  · simp [funct7Raises, hleft]

/-- Settles O23: the two cases of OP and the two of OP-IMM are R303's four. -/
theorem invalidFunct7Exactly : Obligations.InvalidFunct7Exactly := by
  refine ⟨fun w f3 f7 => ?_, by decide, by decide⟩
  refine decode_eq_invalidFunct7_iff.trans (and_congr_right' (and_congr_right' ?_))
  rw [funct7Raises_op_iff, funct7Raises_opImm_iff, and_or_left, and_or_left, or_assoc]
  rfl

/-! ### InvalidRegister -/

/-- No word raises kind 3 (R25). -/
theorem decode_ne_invalidRegister (w : Word) (raw : BitVec 8) :
    decode w ≠ .err (.invalidRegister raw) := by
  intro h
  have hcase := decode_cases w
  rw [h] at hcase
  cases hcase

/-- Settles O24: a zero-extended field resolves, a decode has no such answer, and past R24's bound
the resolver raises (O30). -/
theorem invalidRegisterOnlyFromDirectResolve :
    Obligations.InvalidRegisterOnlyFromDirectResolve :=
  ⟨resolve_setWidth, decode_ne_invalidRegister, resolveAcceptsExactlyUpTo31.2⟩

/-! ### Reset and hazards -/

/-- Settles O7: the state after a step has the inputs of the one before it, and a step depends on
these alone. -/
theorem secondEvaluationChangesNothing : Obligations.SecondEvaluationChangesNothing := by
  intro s s' h
  obtain rfl := eq_of_step h
  exact step_eq _

/-- Settles O8, by induction on the words: the step on a presented word shows the bundle of its
decode, and the run goes on from the state after it. -/
theorem wordStreamShowsDecodeOfEachWord : Obligations.WordStreamShowsDecodeOfEachWord := by
  intro ws
  induction ws with
  | nil => exact fun _ => rfl
  | cons w ws ih =>
    intro s
    simp [runWords, step_eq, ih]

/-- An evaluation of the word presented at reset changes no output (R330). -/
theorem step_reset : step State.reset = .next State.reset :=
  rfl

/-- Settles O3: the state after reset is one a step gives, so it is legal and settled (O2). -/
theorem resetIsLegalAndSettled : Obligations.ResetIsLegalAndSettled := by
  obtain ⟨hlegal, hsettled⟩ := everyStepKeepsLegalSettledOutputs _ _ step_reset
  exact ⟨hlegal, hsettled, rfl⟩

end Sys2Proof
